-- ==== Sys2Proof/Word.lean ====
section
/-! DEFINITION. The byte, and the instruction word of otp_codec. The block fetches no instruction
(R103): what plays the part of an instruction word is the bit vector a unit decodes, in one of the
five formats of `opcode_table.json` (R130, R132, R133, R125, R136). -/

namespace Sys2Proof

/-- One byte, the unit of every transfer (R85, R87). -/
abbrev Byte := BitVec 8

/-- A word of one of the five formats of `opcode_table.json` (R136), with the width the format has. -/
inductive InstrWord where
  /-- `SE_DV`: SE's decode vector, `ST CV KIND SM` from bit 5 down (R130). -/
  | seDv (v : BitVec 6)
  /-- `CF_DV`: CF's decode vector, `SRC CST PH AS X` from bit 9 down (R132). -/
  | cfDv (v : BitVec 10)
  /-- `BYTE`: a byte presented to the alphabet codec (R133). -/
  | byte (b : Byte)
  /-- `CFG_DIR`: the latched direction bit (R125). -/
  | cfgDir (d : BitVec 1)
  /-- `CFG_POL`: the latched policy field (R125). -/
  | cfgPol (p : BitVec 2)
deriving DecidableEq, Repr

end Sys2Proof
end

