-- ==== Sys2Proof/Syntax.lean ====
section
/-! DEFINITION. The instructions of otp_codec: one constructor for each row of `opcode_table.json`
(R136), in the table's order. The arguments of a constructor are the bits its row leaves free (the
`x` of the pattern, most significant first), so that no bit of a word is dropped; the operands of an
operation are the word it takes from its channel and the registers of its unit (R122). -/

namespace Sys2Proof

inductive Instr where
  /-- SE_HS_OK, `SE_DV` `00x001` (R200). -/
  | seHsOk (cv : Bool)
  /-- SE_HS_BAD, `SE_DV` `00x000` (R201). -/
  | seHsBad (cv : Bool)
  /-- SE_HS_EOF, `SE_DV` `00x01x` (R202). -/
  | seHsEof (cv sm : Bool)
  /-- SE_HS_ERR, `SE_DV` `00x10x` (R203). -/
  | seHsErr (cv sm : Bool)
  /-- SE_ILLEGAL, `SE_DV` `0xx11x` (R225). -/
  | seIllegal (st0 cv sm : Bool)
  /-- SE_DATA, `SE_DV` `010000` (R180). -/
  | seData
  /-- SE_TERM, `SE_DV` `010001` (R181). -/
  | seTerm
  /-- SE_KEY, `SE_DV` `01100x` (R182). -/
  | seKey (sm : Bool)
  /-- SE_EOF, `SE_DV` `01x01x` (R222). -/
  | seEof (cv sm : Bool)
  /-- SE_IOERR, `SE_DV` `01x10x` (R224). -/
  | seIoerr (cv sm : Bool)
  /-- SE_DISCARD, `SE_DV` `10xxxx` (R226). -/
  | seDiscard (cv : Bool) (kind : BitVec 2) (sm : Bool)
  /-- SE_RESERVED_STATE, `SE_DV` `11xxxx` (R131). -/
  | seReservedState (cv : Bool) (kind : BitVec 2) (sm : Bool)
  /-- CF_START_OK, `CF_DV` `01000xx011` (R240). -/
  | cfStartOk (ph allSent : Bool)
  /-- CF_START_KEYLEN, `CF_DV` `01000xx010` (R241). -/
  | cfStartKeylen (ph allSent : Bool)
  /-- CF_CMD_ILLEGAL.1, `CF_DV` `01000xx00x` (R242). -/
  | cfCmdIllegal1 (ph allSent keyOk : Bool)
  /-- CF_CMD_ILLEGAL.2, `CF_DV` `01000xx10x` (R242). -/
  | cfCmdIllegal2 (ph allSent keyOk : Bool)
  /-- CF_CMD_ILLEGAL.3, `CF_DV` `01000xx11x` (R242). -/
  | cfCmdIllegal3 (ph allSent keyOk : Bool)
  /-- CF_HS_OK, `CF_DV` `10001xx001` (R205). -/
  | cfHsOk (ph allSent : Bool)
  /-- CF_HS_BAD, `CF_DV` `10001xx000` (R206). -/
  | cfHsBad (ph allSent : Bool)
  /-- CF_HS_EOF, `CF_DV` `10001xx01x` (R207). -/
  | cfHsEof (ph allSent sm : Bool)
  /-- CF_HS_ERR, `CF_DV` `10001xx10x` (R208). -/
  | cfHsErr (ph allSent sm : Bool)
  /-- CF_NET_ILLEGAL.1, `CF_DV` `10001xx11x` (R251). -/
  | cfNetIllegal1 (ph allSent sm : Bool)
  /-- CF_NET_ILLEGAL.2, `CF_DV` `100101x11x` (R251). -/
  | cfNetIllegal2 (allSent sm : Bool)
  /-- CF_SEND_BYTE, `CF_DV` `0001000001` (R245). -/
  | cfSendByte
  /-- CF_SEND_SENT, `CF_DV` `0001000000` (R246). -/
  | cfSendSent
  /-- CF_RECV_BYTE, `CF_DV` `100101x000` (R247). -/
  | cfRecvByte (allSent : Bool)
  /-- CF_RECV_TERM, `CF_DV` `100101x001` (R248). -/
  | cfRecvTerm (allSent : Bool)
  /-- CF_RECV_EOF, `CF_DV` `100101x01x` (R249). -/
  | cfRecvEof (allSent sm : Bool)
  /-- CF_RECV_ERR, `CF_DV` `100101x10x` (R250). -/
  | cfRecvErr (allSent sm : Bool)
  /-- CF_DISCARD.1, `CF_DV` `10000xxxxx` (R252). -/
  | cfDiscard1 (ph allSent : Bool) (x : BitVec 3)
  /-- CF_DISCARD.2, `CF_DV` `10011xxxxx` (R252). -/
  | cfDiscard2 (ph allSent : Bool) (x : BitVec 3)
  /-- CF_DISCARD.3, `CF_DV` `10100xxxxx` (R252). -/
  | cfDiscard3 (ph allSent : Bool) (x : BitVec 3)
  /-- SYM_A, `BYTE` `01000001` (R160). -/
  | symA
  /-- SYM_B, `BYTE` `01000010` (R160). -/
  | symB
  /-- SYM_C, `BYTE` `01000011` (R160). -/
  | symC
  /-- SYM_D, `BYTE` `01000100` (R160). -/
  | symD
  /-- SYM_E, `BYTE` `01000101` (R160). -/
  | symE
  /-- SYM_F, `BYTE` `01000110` (R160). -/
  | symF
  /-- SYM_G, `BYTE` `01000111` (R160). -/
  | symG
  /-- SYM_H, `BYTE` `01001000` (R160). -/
  | symH
  /-- SYM_I, `BYTE` `01001001` (R160). -/
  | symI
  /-- SYM_J, `BYTE` `01001010` (R160). -/
  | symJ
  /-- SYM_K, `BYTE` `01001011` (R160). -/
  | symK
  /-- SYM_L, `BYTE` `01001100` (R160). -/
  | symL
  /-- SYM_M, `BYTE` `01001101` (R160). -/
  | symM
  /-- SYM_N, `BYTE` `01001110` (R160). -/
  | symN
  /-- SYM_O, `BYTE` `01001111` (R160). -/
  | symO
  /-- SYM_P, `BYTE` `01010000` (R160). -/
  | symP
  /-- SYM_Q, `BYTE` `01010001` (R160). -/
  | symQ
  /-- SYM_R, `BYTE` `01010010` (R160). -/
  | symR
  /-- SYM_S, `BYTE` `01010011` (R160). -/
  | symS
  /-- SYM_T, `BYTE` `01010100` (R160). -/
  | symT
  /-- SYM_U, `BYTE` `01010101` (R160). -/
  | symU
  /-- SYM_V, `BYTE` `01010110` (R160). -/
  | symV
  /-- SYM_W, `BYTE` `01010111` (R160). -/
  | symW
  /-- SYM_X, `BYTE` `01011000` (R160). -/
  | symX
  /-- SYM_Y, `BYTE` `01011001` (R160). -/
  | symY
  /-- SYM_Z, `BYTE` `01011010` (R160). -/
  | symZ
  /-- SYM_SPACE, `BYTE` `00100000` (R160). -/
  | symSpace
  /-- SENT_ENC_SERVICE, `BYTE` `00100100` (R111). -/
  | sentEncService
  /-- SENT_DEC_SERVICE, `BYTE` `01000000` (R111). -/
  | sentDecService
  /-- MARK_BYTE, `BYTE` `00111111` (R168). -/
  | markByte
  /-- BYTE_INVALID, `BYTE` `xxxxxxxx` (R160). -/
  | byteInvalid (b : Byte)
  /-- XFORM_ENC, `CFG_DIR` `0` (R165). -/
  | xformEnc
  /-- XFORM_DEC, `CFG_DIR` `1` (R166). -/
  | xformDec
  /-- POL_SKIP, `CFG_POL` `00` (R168). -/
  | polSkip
  /-- POL_MARK, `CFG_POL` `01` (R168). -/
  | polMark
  /-- POL_ABORT, `CFG_POL` `10` (R168). -/
  | polAbort
  /-- POL_ILLEGAL, `CFG_POL` `11` (R220). -/
  | polIllegal
deriving DecidableEq, Repr

end Sys2Proof
end

