-- ==== Sys2Proof/WellFormed.lean ====
section
/-! DEFINITION. Which instructions are well formed. The `BYTE` rows are read top to bottom and the
first match wins (R133), so the last row, BYTE_INVALID, stands only for a byte that no earlier row
names. Every other constructor's arguments are free bits of its row, and any value will do. -/

namespace Sys2Proof

/-- The bytes that a `BYTE` row above BYTE_INVALID names: the 27 symbols, the two standard sentinels
and the MARK byte (R110, R133). -/
def namedByte (b : Byte) : Bool :=
  (0x41#8 ≤ b && b ≤ 0x5A#8) || b == 0x20#8 || b == 0x24#8 || b == 0x40#8 || b == 0x3F#8

/-- The check of an instruction's arguments. -/
def Instr.wellFormed : Instr → Bool
  | .byteInvalid b => !namedByte b
  | .seHsOk _ | .seHsBad _ | .seHsEof _ _ | .seHsErr _ _ | .seIllegal _ _ _ | .seData | .seTerm
  | .seKey _ | .seEof _ _ | .seIoerr _ _ | .seDiscard _ _ _ | .seReservedState _ _ _ => true
  | .cfStartOk _ _ | .cfStartKeylen _ _ | .cfCmdIllegal1 _ _ _ | .cfCmdIllegal2 _ _ _
  | .cfCmdIllegal3 _ _ _ | .cfHsOk _ _ | .cfHsBad _ _ | .cfHsEof _ _ _ | .cfHsErr _ _ _
  | .cfNetIllegal1 _ _ _ | .cfNetIllegal2 _ _ | .cfSendByte | .cfSendSent | .cfRecvByte _
  | .cfRecvTerm _ | .cfRecvEof _ _ | .cfRecvErr _ _ | .cfDiscard1 _ _ _ | .cfDiscard2 _ _ _
  | .cfDiscard3 _ _ _ => true
  | .symA | .symB | .symC | .symD | .symE | .symF | .symG | .symH | .symI | .symJ | .symK | .symL
  | .symM | .symN | .symO | .symP | .symQ | .symR | .symS | .symT | .symU | .symV | .symW | .symX
  | .symY | .symZ | .symSpace | .sentEncService | .sentDecService | .markByte => true
  | .xformEnc | .xformDec | .polSkip | .polMark | .polAbort | .polIllegal => true

end Sys2Proof
end

