-- ==== Sys2Proof/Decode.lean ====
section
/-! DEFINITION. The decode tables of R130, R132, R133 and R125, and the encoder written from the same
tables. `decode` is total: an SE vector, a byte and a configuration field always name a row, and a CF
vector that no row lists is rejected under the name R132 gives the case. -/

namespace Sys2Proof

/-- Why a CF vector picks no step: the cases R132 lists after its table. -/
inductive Reject where
  /-- A command word while `CST` is HS_WAIT, STREAM, DONE or FAIL: held (R253). -/
  | commandOutsideIdle
  /-- A net word in STREAM with `PH = 0`: held while CF makes its send attempt (R253). -/
  | netWordInSendPhase
  /-- The internal source outside STREAM, or in STREAM with `PH = 1`. -/
  | internalOutsideSendPhase
  /-- `00 010 0 1 xxx`: unreachable, since `AS = 1` implies `PH = 1` (R246). -/
  | allSentInSendPhase
  /-- An internal vector whose X is not `{00, MORE}`: no state forms one. -/
  | internalX
  /-- `SRC = 11`. -/
  | srcReserved
  /-- `CST` is `101`, `110` or `111` (R131; DEDUCED, assumption 15). -/
  | cstReserved
deriving DecidableEq, Repr

/-! ### Packing the vectors -/

/-- `DV_SE[5:0] = {ST[1:0], CV, KIND[1:0], SM}` (R130). -/
def seDvBits (st : BitVec 2) (cv : Bool) (kind : BitVec 2) (sm : Bool) : BitVec 6 :=
  st ++ BitVec.ofBool cv ++ kind ++ BitVec.ofBool sm

/-- `DV_CF[9:0] = {SRC[1:0], CST[2:0], PH, AS, X[2:0]}` (R132). -/
def cfDvBits (src : BitVec 2) (cst : BitVec 3) (ph allSent : Bool) (x : BitVec 3) : BitVec 10 :=
  src ++ cst ++ BitVec.ofBool ph ++ BitVec.ofBool allSent ++ x

/-- `X = {hi[1:0], lo}`: `{OP, KEYOK}` of a command, `{KIND, SM}` of a net word, `{00, MORE}` of an
internal step (R132). -/
def cfX (hi : BitVec 2) (lo : Bool) : BitVec 3 :=
  hi ++ BitVec.ofBool lo

/-! ### Decoding -/

/-- SE's table (R130): its twelve rows cover all 64 vectors. -/
def decodeSe (v : BitVec 6) : Instr :=
  let st := v.extractLsb' 4 2
  let cv := v.getLsbD 3
  let kind := v.extractLsb' 1 2
  let sm := v.getLsbD 0
  if st = 0b00#2 then
    if kind = 0b00#2 then (if sm then .seHsOk cv else .seHsBad cv)
    else if kind = 0b01#2 then .seHsEof cv sm
    else if kind = 0b10#2 then .seHsErr cv sm
    else .seIllegal false cv sm
  else if st = 0b01#2 then
    if kind = 0b00#2 then (if cv then .seKey sm else if sm then .seTerm else .seData)
    else if kind = 0b01#2 then .seEof cv sm
    else if kind = 0b10#2 then .seIoerr cv sm
    else .seIllegal true cv sm
  else if st = 0b10#2 then .seDiscard cv kind sm
  else .seReservedState cv kind sm

/-- CF's rows for a command word, `SRC = 01` (R132). -/
def decodeCfCommand (cst : BitVec 3) (ph allSent : Bool) (x : BitVec 3) : Except Reject Instr :=
  let op := x.extractLsb' 1 2
  let keyOk := x.getLsbD 0
  if cst = 0b000#3 then
    if op = 0b01#2 then .ok (if keyOk then .cfStartOk ph allSent else .cfStartKeylen ph allSent)
    else if op = 0b00#2 then .ok (.cfCmdIllegal1 ph allSent keyOk)
    else if op = 0b10#2 then .ok (.cfCmdIllegal2 ph allSent keyOk)
    else .ok (.cfCmdIllegal3 ph allSent keyOk)
  else .error .commandOutsideIdle

/-- CF's rows for a net word, `SRC = 10` (R132). -/
def decodeCfNet (cst : BitVec 3) (ph allSent : Bool) (x : BitVec 3) : Except Reject Instr :=
  let kind := x.extractLsb' 1 2
  let sm := x.getLsbD 0
  if cst = 0b000#3 then .ok (.cfDiscard1 ph allSent x)
  else if cst = 0b001#3 then
    if kind = 0b00#2 then .ok (if sm then .cfHsOk ph allSent else .cfHsBad ph allSent)
    else if kind = 0b01#2 then .ok (.cfHsEof ph allSent sm)
    else if kind = 0b10#2 then .ok (.cfHsErr ph allSent sm)
    else .ok (.cfNetIllegal1 ph allSent sm)
  else if cst = 0b010#3 then
    if ph then
      if kind = 0b00#2 then .ok (if sm then .cfRecvTerm allSent else .cfRecvByte allSent)
      else if kind = 0b01#2 then .ok (.cfRecvEof allSent sm)
      else if kind = 0b10#2 then .ok (.cfRecvErr allSent sm)
      else .ok (.cfNetIllegal2 allSent sm)
    else .error .netWordInSendPhase
  else if cst = 0b011#3 then .ok (.cfDiscard2 ph allSent x)
  else .ok (.cfDiscard3 ph allSent x)

/-- CF's rows for an internal step, `SRC = 00` (R132). -/
def decodeCfInternal (cst : BitVec 3) (ph allSent : Bool) (x : BitVec 3) : Except Reject Instr :=
  if cst = 0b010#3 ∧ ph = false then
    if allSent then .error .allSentInSendPhase
    else if x = 0b001#3 then .ok .cfSendByte
    else if x = 0b000#3 then .ok .cfSendSent
    else .error .internalX
  else .error .internalOutsideSendPhase

/-- CF's table (R132). -/
def decodeCf (v : BitVec 10) : Except Reject Instr :=
  let src := v.extractLsb' 8 2
  let cst := v.extractLsb' 5 3
  let ph := v.getLsbD 4
  let allSent := v.getLsbD 3
  let x := v.extractLsb' 0 3
  if src = 0b11#2 then .error .srcReserved
  else if 0b101#3 ≤ cst then .error .cstReserved
  else if src = 0b01#2 then decodeCfCommand cst ph allSent x
  else if src = 0b10#2 then decodeCfNet cst ph allSent x
  else decodeCfInternal cst ph allSent x

/-- The rows of format `BYTE` above BYTE_INVALID, with the byte each one names (R110, R133). -/
def byteRows : List (Byte × Instr) :=
  [(0x41, .symA), (0x42, .symB), (0x43, .symC), (0x44, .symD), (0x45, .symE), (0x46, .symF),
   (0x47, .symG), (0x48, .symH), (0x49, .symI), (0x4A, .symJ), (0x4B, .symK), (0x4C, .symL),
   (0x4D, .symM), (0x4E, .symN), (0x4F, .symO), (0x50, .symP), (0x51, .symQ), (0x52, .symR),
   (0x53, .symS), (0x54, .symT), (0x55, .symU), (0x56, .symV), (0x57, .symW), (0x58, .symX),
   (0x59, .symY), (0x5A, .symZ), (0x20, .symSpace), (0x24, .sentEncService),
   (0x40, .sentDecService), (0x3F, .markByte)]

/-- The `BYTE` table, read top to bottom with BYTE_INVALID last (R133). -/
def decodeByte (b : Byte) : Instr :=
  match byteRows.lookup b with
  | some i => i
  | none => .byteInvalid b

/-- The `CFG_DIR` rows (R125). -/
def decodeDir (d : BitVec 1) : Instr :=
  if d = 0b0#1 then .xformEnc else .xformDec

/-- The `CFG_POL` rows (R125). -/
def decodePol (p : BitVec 2) : Instr :=
  if p = 0b00#2 then .polSkip
  else if p = 0b01#2 then .polMark
  else if p = 0b10#2 then .polAbort
  else .polIllegal

/-- The decoder of the five formats. -/
def decode : InstrWord → Except Reject Instr
  | .seDv v => .ok (decodeSe v)
  | .cfDv v => decodeCf v
  | .byte b => .ok (decodeByte b)
  | .cfgDir d => .ok (decodeDir d)
  | .cfgPol p => .ok (decodePol p)

/-! ### Encoding -/

/-- The word of an instruction, written from the patterns of R130, R132, R133 and R125. -/
def encode : Instr → InstrWord
  | .seHsOk cv => .seDv (seDvBits 0b00 cv 0b00 true)
  | .seHsBad cv => .seDv (seDvBits 0b00 cv 0b00 false)
  | .seHsEof cv sm => .seDv (seDvBits 0b00 cv 0b01 sm)
  | .seHsErr cv sm => .seDv (seDvBits 0b00 cv 0b10 sm)
  | .seIllegal st0 cv sm => .seDv (seDvBits (0b0#1 ++ BitVec.ofBool st0) cv 0b11 sm)
  | .seData => .seDv (seDvBits 0b01 false 0b00 false)
  | .seTerm => .seDv (seDvBits 0b01 false 0b00 true)
  | .seKey sm => .seDv (seDvBits 0b01 true 0b00 sm)
  | .seEof cv sm => .seDv (seDvBits 0b01 cv 0b01 sm)
  | .seIoerr cv sm => .seDv (seDvBits 0b01 cv 0b10 sm)
  | .seDiscard cv kind sm => .seDv (seDvBits 0b10 cv kind sm)
  | .seReservedState cv kind sm => .seDv (seDvBits 0b11 cv kind sm)
  | .cfStartOk ph allSent => .cfDv (cfDvBits 0b01 0b000 ph allSent 0b011)
  | .cfStartKeylen ph allSent => .cfDv (cfDvBits 0b01 0b000 ph allSent 0b010)
  | .cfCmdIllegal1 ph allSent keyOk => .cfDv (cfDvBits 0b01 0b000 ph allSent (cfX 0b00 keyOk))
  | .cfCmdIllegal2 ph allSent keyOk => .cfDv (cfDvBits 0b01 0b000 ph allSent (cfX 0b10 keyOk))
  | .cfCmdIllegal3 ph allSent keyOk => .cfDv (cfDvBits 0b01 0b000 ph allSent (cfX 0b11 keyOk))
  | .cfHsOk ph allSent => .cfDv (cfDvBits 0b10 0b001 ph allSent 0b001)
  | .cfHsBad ph allSent => .cfDv (cfDvBits 0b10 0b001 ph allSent 0b000)
  | .cfHsEof ph allSent sm => .cfDv (cfDvBits 0b10 0b001 ph allSent (cfX 0b01 sm))
  | .cfHsErr ph allSent sm => .cfDv (cfDvBits 0b10 0b001 ph allSent (cfX 0b10 sm))
  | .cfNetIllegal1 ph allSent sm => .cfDv (cfDvBits 0b10 0b001 ph allSent (cfX 0b11 sm))
  | .cfNetIllegal2 allSent sm => .cfDv (cfDvBits 0b10 0b010 true allSent (cfX 0b11 sm))
  | .cfSendByte => .cfDv (cfDvBits 0b00 0b010 false false 0b001)
  | .cfSendSent => .cfDv (cfDvBits 0b00 0b010 false false 0b000)
  | .cfRecvByte allSent => .cfDv (cfDvBits 0b10 0b010 true allSent 0b000)
  | .cfRecvTerm allSent => .cfDv (cfDvBits 0b10 0b010 true allSent 0b001)
  | .cfRecvEof allSent sm => .cfDv (cfDvBits 0b10 0b010 true allSent (cfX 0b01 sm))
  | .cfRecvErr allSent sm => .cfDv (cfDvBits 0b10 0b010 true allSent (cfX 0b10 sm))
  | .cfDiscard1 ph allSent x => .cfDv (cfDvBits 0b10 0b000 ph allSent x)
  | .cfDiscard2 ph allSent x => .cfDv (cfDvBits 0b10 0b011 ph allSent x)
  | .cfDiscard3 ph allSent x => .cfDv (cfDvBits 0b10 0b100 ph allSent x)
  | .symA => .byte 0x41
  | .symB => .byte 0x42
  | .symC => .byte 0x43
  | .symD => .byte 0x44
  | .symE => .byte 0x45
  | .symF => .byte 0x46
  | .symG => .byte 0x47
  | .symH => .byte 0x48
  | .symI => .byte 0x49
  | .symJ => .byte 0x4A
  | .symK => .byte 0x4B
  | .symL => .byte 0x4C
  | .symM => .byte 0x4D
  | .symN => .byte 0x4E
  | .symO => .byte 0x4F
  | .symP => .byte 0x50
  | .symQ => .byte 0x51
  | .symR => .byte 0x52
  | .symS => .byte 0x53
  | .symT => .byte 0x54
  | .symU => .byte 0x55
  | .symV => .byte 0x56
  | .symW => .byte 0x57
  | .symX => .byte 0x58
  | .symY => .byte 0x59
  | .symZ => .byte 0x5A
  | .symSpace => .byte 0x20
  | .sentEncService => .byte 0x24
  | .sentDecService => .byte 0x40
  | .markByte => .byte 0x3F
  | .byteInvalid b => .byte b
  | .xformEnc => .cfgDir 0b0
  | .xformDec => .cfgDir 0b1
  | .polSkip => .cfgPol 0b00
  | .polMark => .cfgPol 0b01
  | .polAbort => .cfgPol 0b10
  | .polIllegal => .cfgPol 0b11

/-! ### A table word without its format -/

/-- The word that `nbits` bits of the table stand for. A width that only one format has (1, 2, 6, 10,
and 16 for ten bits in whole bytes) names its format. Eight bits are the width of `BYTE` and also of
`SE_DV` padded to a byte, and nothing in the bits says which: the row that fixes more bits is taken,
so a byte that a `BYTE` row names is a byte, and any other value below 64 is an SE vector. The
one-bit and two-bit configuration formats padded to a byte are always read as SE vectors (DESIGN
CHOICE, assumption 3; the machine itself never needs the guess, since each unit presents its own
format). -/
def tableWord (nbits w : Nat) : Option InstrWord :=
  if 2 ^ nbits ≤ w then none
  else if nbits = 1 then some (.cfgDir (BitVec.ofNat 1 w))
  else if nbits = 2 then some (.cfgPol (BitVec.ofNat 2 w))
  else if nbits = 6 then some (.seDv (BitVec.ofNat 6 w))
  else if nbits = 8 then
    if namedByte (BitVec.ofNat 8 w) then some (.byte (BitVec.ofNat 8 w))
    else if w < 64 then some (.seDv (BitVec.ofNat 6 w))
    else some (.byte (BitVec.ofNat 8 w))
  else if nbits = 10 ∨ nbits = 16 then
    if w < 1024 then some (.cfDv (BitVec.ofNat 10 w)) else none
  else none

/-- The instruction the decoder reads from a word of the table. -/
def decodeTableWord (nbits w : Nat) : Option Instr :=
  match tableWord nbits w with
  | none => none
  | some v =>
    match decode v with
    | .ok i => some i
    | .error _ => none

end Sys2Proof
end

