-- ==== Sys2Proof/Config.lean ====
section
/-! DEFINITION. What an implementation fixes (R8): the synthesis parameters with their legal and
reference values, and the one value the spec leaves unspecified, `ERR_MARK` (R163). -/

namespace Sys2Proof

/-- `ERR_MARK` (R8, R162, R163; I1): the byte `val2sym` returns outside 0 to 26. The spec gives it no
value and any value will do, so it is a free value: it has no body, and nothing can be proved of it
(DESIGN CHOICE, assumption 1). -/
opaque Config.errMark : Byte

/-- The parameters of R8 that are fixed when the block is built or connected, and the capacities of the two
channels that R88 gives the transport. (`SENT`, `DIR` and `POLICY` are latched at reset and stand among the
registers, R9, R45.) -/
structure Params where
  /-- `CHUNK_MAX`: the most bytes CF puts in one data chunk. -/
  chunkMax : Nat
  /-- `RX_CAP`: the longest read the transport delivers. -/
  rxCap : Nat
  /-- `LEN_W`: the width of N, M and of a source index. -/
  lenW : Nat
  /-- `OBUF`: the room, in words, of each output channel that can hold a step. -/
  obuf : Nat
  /-- `NET_BUF` of the C→S direction: the bytes the transport holds in it, `none` for unbounded. R8 and
  R97 say `per direction`, and R320, R322 and I8 speak of its value in the S→C direction; that the two
  directions may differ is the model's choice (DESIGN CHOICE, assumption 2). -/
  netBufC2s : Option Nat
  /-- `NET_BUF` of the S→C direction. -/
  netBufS2c : Option Nat
  /-- The capacity of `SE.rx`, which R88 calls the transport's: the bytes that can wait in it, `none` for
  unbounded (DESIGN CHOICE, assumption 24). -/
  rxRoomC2s : Option Nat
  /-- The capacity of `CF.nrx`, as that of `SE.rx`. -/
  rxRoomS2c : Option Nat
deriving DecidableEq, Repr

/-- The legal values of R8, and room for a byte in each channel that the transport fills. -/
abbrev Params.Legal (p : Params) : Prop :=
  1 ≤ p.chunkMax ∧ p.chunkMax ≤ 65535 ∧ 1 ≤ p.rxCap ∧ 1 ≤ p.lenW ∧ 2 ≤ p.obuf ∧
    p.netBufC2s.all (fun k => decide (1 ≤ k)) = true ∧
    p.netBufS2c.all (fun k => decide (1 ≤ k)) = true ∧
    p.rxRoomC2s.all (fun k => decide (1 ≤ k)) = true ∧
    p.rxRoomS2c.all (fun k => decide (1 ≤ k)) = true

/-- The reference values of R8. `NET_BUF` is OPEN there and has none, nor has R88 one for the channels that the
transport fills: unbounded is the model's choice (DESIGN CHOICE, assumptions 2 and 24). -/
def Params.reference : Params where
  chunkMax := 1000
  rxCap := 1000
  lenW := 32
  obuf := 2
  netBufC2s := none
  netBufS2c := none
  rxRoomC2s := none
  rxRoomS2c := none

end Sys2Proof
end

