-- ==== Sys2Proof/Machine/State.lean ====
section
/-! DEFINITION. The state of one connection of otp_codec: a server engine SE, a client framer CF, the
combinational units ALPHA and XFORM, the host transport between SE and CF, the two source buffers, the
configuration ports, and the moves still to be made. Everything is plain data. -/

namespace Sys2Proof.Machine

/-! ### Coded fields -/

/-- `ST`, SE's connection state (R32). -/
inductive SeSt where
  /-- `00` AWAIT_HS. -/
  | awaitHs
  /-- `01` ACTIVE. -/
  | active
  /-- `10` CLOSED. -/
  | closed
  /-- `11`, never reached (R131). -/
  | reserved
deriving DecidableEq, Repr

/-- `CST`, CF's session state (R39). -/
inductive CfSt where
  /-- `000` IDLE. -/
  | idle
  /-- `001` HS_WAIT. -/
  | hsWait
  /-- `010` STREAM. -/
  | stream
  /-- `011` DONE. -/
  | done
  /-- `100` FAIL. -/
  | fail
  /-- `101`, never reached (R131). -/
  | reserved5
  /-- `110`, never reached (R131). -/
  | reserved6
  /-- `111`, never reached (R131). -/
  | reserved7
deriving DecidableEq, Repr

/-- `SE.DIR` (R38). -/
inductive Dir where
  /-- `0`: add mod 27. -/
  | enc
  /-- `1`: subtract mod 27. -/
  | dec
deriving DecidableEq, Repr

/-- `SE.POL` (R38, R125). -/
inductive Policy where
  /-- `00` SKIP. -/
  | skip
  /-- `01` MARK. -/
  | mark
  /-- `10` ABORT. -/
  | abort
  /-- `11`, an illegal configuration (R220). -/
  | illegal
deriving DecidableEq, Repr

/-- The close causes of R282. The codes `0xA` to `0xF` are never recorded, so they have no name. -/
inductive Cause where
  | none
  | term
  | hsMismatch
  | hsShort
  | eof
  | ioerr
  | invalid
  | keylen
  | illegalEvt
  | cfgIllegal
deriving DecidableEq, Repr

/-- The class of a byte relative to a unit's latched sentinel (R111). -/
inductive ByteClass where
  | symbol
  | sentinel
  | other
deriving DecidableEq, Repr

/-- What the pair operation answers (R168). `illegal` is the model's name for the answer under the
policy code `11`, for which R168 has no case (DEDUCED, assumption 4). -/
inductive PairResult where
  | out (b : Byte)
  | nothing
  | abort
  | illegal
deriving DecidableEq, Repr

/-! ### Channel words -/

/-- KIND of a net word (R113). -/
inductive Kind where
  | byte
  | eof
  | ioerr
  | close
deriving DecidableEq, Repr

/-- A net word, 11 bits (R113). -/
structure NetWord where
  kind : Kind
  last : Bool
  data : Byte
deriving DecidableEq, Repr

/-- A command word (R116): OP and the lengths N and M, each of `LEN_W` bits. -/
structure CmdWord where
  op : BitVec 2
  n : Nat
  m : Nat
deriving DecidableEq, Repr

/-- A result word (R117). KIND `11` is never emitted, so it has no constructor. -/
inductive ResWord where
  | byte (b : Byte)
  | done
  | fail (c : Cause)
deriving DecidableEq, Repr

/-- CODE of an event word (R119). The reserved codes are never emitted, so they have no name. -/
inductive EvCode where
  | hsAccept
  | hsReject
  | closed
  | carryDropped
  | invalidPair
deriving DecidableEq, Repr

/-- An event word (R119). -/
structure Event where
  code : EvCode
  arg : BitVec 4
deriving DecidableEq, Repr

/-! ### The units -/

/-- The server engine: its registers (R32, R33, R35, R37, R38) and its channels (R88). -/
structure SE where
  /-- `ST` (R32). -/
  st : SeSt
  /-- `CV` (R33). -/
  cv : Bool
  /-- `CB` (R33). -/
  cb : Byte
  /-- `TS` (R35). -/
  ts : Bool
  /-- `SE.CAUSE` (R37). -/
  cause : Cause
  /-- `SE.SENT` (R38). -/
  sent : Byte
  /-- `SE.DIR` (R38). -/
  dir : Dir
  /-- `SE.POL` (R38). -/
  pol : Policy
  /-- `SE.CFG_OK` (R38, R220). -/
  cfgOk : Bool
  /-- `SE.rx`, oldest word first (R88). -/
  rx : List NetWord
  /-- `SE.tx` (R88). -/
  tx : List NetWord
  /-- `SE.ev` (R88, R294). -/
  ev : List Event
deriving DecidableEq, Repr

/-- The client framer: its registers (R39 to R44, R46, R47) and its channels (R88). -/
structure CF where
  /-- `CST` (R39). -/
  cst : CfSt
  /-- `PH` (R40). -/
  ph : Bool
  /-- `AS` (R41). -/
  allSent : Bool
  /-- `N` (R42). -/
  n : Nat
  /-- `M` (R42). -/
  m : Nat
  /-- `TXP` (R43). -/
  txp : Nat
  /-- `CC` (R44). -/
  cc : BitVec 16
  /-- `CF.CAUSE` (R46). -/
  cause : Cause
  /-- `CF.SENT` (R47). -/
  sent : Byte
  /-- `CF.CFG_OK` (R47, R254). -/
  cfgOk : Bool
  /-- `CF.cmd`, oldest word first (R88). -/
  cmd : List CmdWord
  /-- `CF.nrx` (R88). -/
  nrx : List NetWord
  /-- `CF.ntx` (R88). -/
  ntx : List NetWord
  /-- `CF.res` (R88). -/
  res : List ResWord
  /-- `CF.ev` (R88, R294). -/
  ev : List Event
deriving DecidableEq, Repr

/-- The nets of the combinational units ALPHA and XFORM and of the pair operation (R3, R160 to R168):
the operands last presented to each and what it answers. They are the model's own fields: the spec
gives these units no register (DESIGN CHOICE, assumption 5). -/
structure Comb where
  /-- The byte presented to ALPHA. -/
  alphaByte : Byte
  /-- `sym2val` of it, `none` for Invalid (R160). -/
  alphaValue : Option (Fin 27)
  /-- Its class relative to `SE.SENT` (R111). -/
  alphaSe : ByteClass
  /-- Its class relative to `CF.SENT` (R111). -/
  alphaCf : ByteClass
  /-- The data operand of XFORM. -/
  xd : Fin 27
  /-- The key operand of XFORM. -/
  xk : Fin 27
  /-- `xform(d, k, DIR)` (R165, R166). -/
  xOut : Fin 27
  /-- `val2sym` of it (R162). -/
  xSym : Byte
  /-- The data byte of the pair operation. -/
  db : Byte
  /-- The key byte of the pair operation. -/
  kb : Byte
  /-- `pairop(db, kb)` (R168). -/
  pairOut : PairResult
deriving DecidableEq, Repr

/-! ### The host -/

/-- The two directions of the transport (R92). -/
inductive Lane where
  /-- C→S: `CF.ntx` to `SE.rx`. -/
  | c2s
  /-- S→C: `SE.tx` to `CF.nrx`. -/
  | s2c
deriving DecidableEq, Repr

/-- One direction of the transport (R92 to R97). -/
structure LaneState where
  /-- The bytes taken from the writer and not yet put into the reader's channel, oldest first. -/
  buf : List Byte
  /-- The writer's CLOSE word has been taken (R94), or the host has reset the writer (R329). -/
  closed : Bool
  /-- An EOF or an IOERR has been delivered to the reader, so that nothing follows it (R94 to R96), or the
  host has reset the reader (R329). -/
  ended : Bool
  /-- The bytes of the read in progress put into the reader's channel so far, 0 at a chunk boundary
  (R93). -/
  chunkLen : Nat
  /-- The host has reset the writer since the transport was connected, and so ended its connection (R329;
  DEDUCED, assumption 23). -/
  writerReset : Bool
deriving DecidableEq, Repr

/-- The transport: its two directions. -/
structure Link where
  c2s : LaneState
  s2c : LaneState
deriving DecidableEq, Repr

/-- The two source buffers (R80). -/
inductive Space where
  | data
  | key
deriving DecidableEq, Repr

/-- A source buffer's contents: its cells with strictly rising indices, less the cells that hold what
an index the host has filled with nothing reads as (`Memory.wf`). -/
abbrev Memory := List Host.Cell

/-- SE's configuration ports (R56). -/
structure SeCfgPorts where
  sent : Byte
  dir : Dir
  pol : Policy
deriving DecidableEq, Repr

/-- CF's configuration port (R57). -/
structure CfCfgPorts where
  sent : Byte
deriving DecidableEq, Repr

/-- What can happen next: a step of a unit, a move of the host (R98), or an evaluation of a
combinational unit on operands presented to it. The order in which agents move is free (R93, R95,
R132, I16 to I19), so it is data: `State.script` (DESIGN CHOICE, assumption 6). -/
inductive Move where
  /-- Nothing happens. -/
  | pass
  /-- SE tries the word at the head of `SE.rx` (R130). -/
  | se
  /-- CF tries the word at the head of `CF.cmd` (R132, `SRC = 01`). -/
  | cfCommand
  /-- CF tries the word at the head of `CF.nrx` (R132, `SRC = 10`). -/
  | cfNet
  /-- CF tries its internal step (R132, `SRC = 00`). -/
  | cfInternal
  /-- A byte is presented to ALPHA (R160). -/
  | alpha (b : Byte)
  /-- Two values are presented to XFORM, under `SE.DIR` (R165, R166). -/
  | xform (d k : Fin 27)
  /-- Two bytes are presented to the pair operation, under `SE.DIR` and `SE.POL` (R168). -/
  | policy (db kb : Byte)
  /-- The reset step of SE (R310), with the ending of its connection (R329). -/
  | resetSe
  /-- The reset step of CF (R310), with the ending of its connection (R329). -/
  | resetCf
  /-- The host drives SE's configuration ports (R45, R327). -/
  | setSePorts (p : SeCfgPorts)
  /-- The host drives CF's configuration port (R45, R327). -/
  | setCfPorts (p : CfCfgPorts)
  /-- The host places one byte in a source buffer (R82). -/
  | place (space : Space) (addr : Nat) (b : Byte)
  /-- The host writes a command word, given as its `2*LEN_W + 2` bits (R116). -/
  | command (bits : Nat)
  /-- The host connects the transport, empty in both directions, to two units it has reset (R313). -/
  | connect
  /-- The transport takes the next word from the writer's output channel (R92, R94, R97). -/
  | carry (lane : Lane)
  /-- The transport delivers its oldest byte, choosing LAST (R92, R93). -/
  | deliver (lane : Lane) (last : Bool)
  /-- The transport delivers EOF (R94). -/
  | deliverEof (lane : Lane)
  /-- The transport delivers IOERR (R95). -/
  | deliverErr (lane : Lane)
  /-- The transport drops the oldest byte or word written towards a closed side (R96). -/
  | drop (lane : Lane)
  /-- The host takes a word from `CF.res` (R98). -/
  | takeRes
  /-- The host takes a word from `SE.ev` (R98). -/
  | takeSeEv
  /-- The host takes a word from `CF.ev` (R98). -/
  | takeCfEv
  /-- A test host wired straight to SE puts a word into `SE.rx` (the `RX` lines of R134; DEDUCED,
  assumption 13). -/
  | benchRx (w : NetWord)
  /-- A test host wired straight to CF puts a word into `CF.nrx` (the `NRX` lines of R134). -/
  | benchNrx (w : NetWord)
  /-- A test host wired straight to SE takes a word from `SE.tx` (R98). -/
  | benchTx
  /-- A test host wired straight to CF takes a word from `CF.ntx` (R98). -/
  | benchNtx
deriving DecidableEq, Repr

/-- The whole state. -/
structure State where
  /-- The server engine. -/
  se : SE
  /-- The client framer. -/
  cf : CF
  /-- The nets of ALPHA, XFORM and the pair operation. -/
  comb : Comb
  /-- The transport. -/
  link : Link
  /-- The source buffer DATA (R80). -/
  data : Memory
  /-- The source buffer KEY (R80). -/
  key : Memory
  /-- SE's configuration ports. -/
  sePorts : SeCfgPorts
  /-- CF's configuration port. -/
  cfPorts : CfCfgPorts
  /-- The parameters of the two instances and of the transport (R8). No step writes them. -/
  params : Params
  /-- Whether the units are wired to the test host of the traces (R134) and not to the host of R98. The
  model's own field; no step writes it (DEDUCED, assumption 13). -/
  bench : Bool
  /-- The moves still to be made, next first. -/
  script : List Move
deriving DecidableEq, Repr

/-- Why the machine stops with a fault. -/
inductive Fault where
  /-- Raised by the host's `place` of a byte at an index outside `0 .. 2^LEN_W - 1`: R84 gives a source
  buffer no such index. Safe: the model stops where the spec has nothing. -/
  | noSuchIndex (space : Space) (addr : Nat)
deriving DecidableEq, Repr

/-- Why a step has no meaning. -/
inductive Refusal where
  /-- Raised by `exec` alone, for an instruction that has no meaning yet. Safe: nothing is claimed of
  it. -/
  | notModelled (mnemonic : String)
  /-- Raised by SE_RESERVED_STATE: `ST = 11`, which no rule enters and for which no rule gives an
  effect; R131 and I10 let a model refuse it. Safe: the state cannot arise from reset. -/
  | unreachableState
  /-- Raised by the host's `place` during a session: R82 and R98 forbid it, and I20 has the model
  refuse the run. Safe: the run is outside the spec. -/
  | bufferChangedInSession
deriving DecidableEq, Repr

/-! ### Reset -/

/-- SE right after a reset step with the ENC_SERVICE profile on its ports (R5, R58). -/
def SE.afterReset : SE where
  st := .awaitHs
  cv := false
  cb := 0x00
  ts := false
  cause := .none
  sent := 0x24
  dir := .enc
  pol := .skip
  cfgOk := true
  rx := []
  tx := []
  ev := []

/-- CF right after a reset step with the ENC_SERVICE sentinel on its port (R5, R59). -/
def CF.afterReset : CF where
  cst := .idle
  ph := false
  allSent := false
  n := 0
  m := 0
  txp := 0
  cc := 0
  cause := .none
  sent := 0x24
  cfgOk := true
  cmd := []
  nrx := []
  ntx := []
  res := []
  ev := []

/-- The nets with every operand at zero, and what the units answer on zero operands (DESIGN CHOICE,
assumption 5). -/
def Comb.afterReset : Comb where
  alphaByte := 0x00
  alphaValue := none
  alphaSe := .other
  alphaCf := .other
  xd := 0
  xk := 0
  xOut := 0
  xSym := 0x41
  db := 0x00
  kb := 0x00
  pairOut := .nothing

/-- An empty direction of the transport (R313). -/
def LaneState.empty : LaneState where
  buf := []
  closed := false
  ended := false
  chunkLen := 0
  writerReset := false

/-- The machine right after reset: both units as R58 and R59 say for a legal configuration, the
transport connected and empty (R313), nothing in the source buffers, nothing scheduled, the host that of
R98. The values on the configuration ports and the parameters are the reference values of R5 and R8 (DESIGN CHOICE,
assumption 7). -/
def State.reset : State where
  se := SE.afterReset
  cf := CF.afterReset
  comb := Comb.afterReset
  link := { c2s := LaneState.empty, s2c := LaneState.empty }
  data := []
  key := []
  sePorts := { sent := 0x24, dir := .enc, pol := .skip }
  cfPorts := { sent := 0x24 }
  params := Params.reference
  bench := false
  script := []

end Sys2Proof.Machine
end

