-- ==== Sys2Proof/Machine/Alphabet.lean ====
section
/-! DEFINITION. The combinational units: the alphabet codec ALPHA (R160 to R164), the cipher transform
XFORM (R165 to R167) and the pair operation with its policy (R168, R169). -/

namespace Sys2Proof.Machine

/-- SYM2VAL (R160): the value of a symbol byte, `none` for Invalid. The characters' bytes are their
ASCII codes (G1; UNVERIFIED, assumption 14). -/
def sym2val (b : Byte) : Option (Fin 27) :=
  if 0x41 ≤ b.toNat ∧ b.toNat ≤ 0x5A then some (Fin.ofNat 27 (b.toNat - 0x41))
  else if b = 0x20#8 then some 26
  else none

/-- VAL2SYM (R162). The last arm is `ERR_MARK`, which no step reaches (R163). -/
def val2sym (v : Nat) : Byte :=
  if v ≤ 25 then BitVec.ofNat 8 (0x41 + v)
  else if v = 26 then 0x20#8
  else Config.errMark

/-- XFORM (R165, R166): `(d + k) mod 27` or `(d - k + 27) mod 27`, over the integers. -/
def xform (d k : Fin 27) : Dir → Fin 27
  | .enc => Fin.ofNat 27 (d.val + k.val)
  | .dec => Fin.ofNat 27 (d.val + 27 - k.val)

/-- The MARK byte `'?'` (R110, R168). -/
def markByteValue : Byte := 0x3F

/-- What the policy answers for a pair that fails conversion (R168). R168 has no case for the code
`11`, which a running SE never holds (DEDUCED, assumption 4). -/
def policyResult : Policy → PairResult
  | .skip => .nothing
  | .mark => .out markByteValue
  | .abort => .abort
  | .illegal => .illegal

/-- PAIR (R168): `pairop(db, kb)` under a direction and a policy. -/
def pairop (dir : Dir) (pol : Policy) (db kb : Byte) : PairResult :=
  match sym2val db, sym2val kb with
  | some dv, some kv => .out (val2sym (xform dv kv dir).val)
  | _, _ => policyResult pol

/-- Whether both bytes of a pair convert (R168, R182). -/
def pairConverts (db kb : Byte) : Bool :=
  (sym2val db).isSome && (sym2val kb).isSome

/-- The class of a byte relative to a sentinel (R111). A legal configuration keeps the sentinel out
of the symbols; under an illegal one a symbol that is also the sentinel is a symbol (DESIGN CHOICE,
assumption 26). -/
def byteClass (sent b : Byte) : ByteClass :=
  if (sym2val b).isSome then .symbol
  else if b = sent then .sentinel
  else .other

end Sys2Proof.Machine
end

