-- ==== Sys2Proof/Machine/Operands.lean ====
section
/-! DEFINITION. The bits of every coded field and word (R32, R39, R38, R113, R116, R117, R119, R282),
the forming of the decode vectors (R130, R132), and the source index of a stream byte (R243). -/

namespace Sys2Proof.Machine

/-! ### Coded fields -/

/-- `ST` (R32). -/
def SeSt.bits : SeSt → BitVec 2
  | .awaitHs => 0b00
  | .active => 0b01
  | .closed => 0b10
  | .reserved => 0b11

/-- The state a code of `ST` names. -/
def SeSt.ofBits (b : BitVec 2) : SeSt :=
  if b = 0b00#2 then .awaitHs else if b = 0b01#2 then .active
  else if b = 0b10#2 then .closed else .reserved

/-- `CST` (R39). -/
def CfSt.bits : CfSt → BitVec 3
  | .idle => 0b000
  | .hsWait => 0b001
  | .stream => 0b010
  | .done => 0b011
  | .fail => 0b100
  | .reserved5 => 0b101
  | .reserved6 => 0b110
  | .reserved7 => 0b111

/-- The state a code of `CST` names. -/
def CfSt.ofBits (b : BitVec 3) : CfSt :=
  if b = 0b000#3 then .idle else if b = 0b001#3 then .hsWait
  else if b = 0b010#3 then .stream else if b = 0b011#3 then .done
  else if b = 0b100#3 then .fail else if b = 0b101#3 then .reserved5
  else if b = 0b110#3 then .reserved6 else .reserved7

/-- `DIR` (R38). -/
def Dir.bits : Dir → BitVec 1
  | .enc => 0b0
  | .dec => 0b1

/-- The direction a code names. -/
def Dir.ofBits (b : BitVec 1) : Dir :=
  if b = 0b0#1 then .enc else .dec

/-- `POL` (R38). -/
def Policy.bits : Policy → BitVec 2
  | .skip => 0b00
  | .mark => 0b01
  | .abort => 0b10
  | .illegal => 0b11

/-- The policy a code names. -/
def Policy.ofBits (b : BitVec 2) : Policy :=
  if b = 0b00#2 then .skip else if b = 0b01#2 then .mark
  else if b = 0b10#2 then .abort else .illegal

/-- The close cause codes (R282). -/
def Cause.bits : Cause → BitVec 4
  | .none => 0x0
  | .term => 0x1
  | .hsMismatch => 0x2
  | .hsShort => 0x3
  | .eof => 0x4
  | .ioerr => 0x5
  | .invalid => 0x6
  | .keylen => 0x7
  | .illegalEvt => 0x8
  | .cfgIllegal => 0x9

/-- `src_sel` of a source buffer: 0 for DATA, 1 for KEY (R57, R81). -/
def Space.bits : Space → BitVec 1
  | .data => 0b0
  | .key => 0b1

/-- The source buffer that `src_sel` selects (R57, R81). -/
def Space.ofBits (b : BitVec 1) : Space :=
  if b = 0b0#1 then .data else .key

/-- KIND of a net word (R113). -/
def Kind.bits : Kind → BitVec 2
  | .byte => 0b00
  | .eof => 0b01
  | .ioerr => 0b10
  | .close => 0b11

/-- The kind a code names. -/
def Kind.ofBits (b : BitVec 2) : Kind :=
  if b = 0b00#2 then .byte else if b = 0b01#2 then .eof
  else if b = 0b10#2 then .ioerr else .close

/-- CODE of an event word (R119). -/
def EvCode.bits : EvCode → BitVec 4
  | .hsAccept => 0x1
  | .hsReject => 0x2
  | .closed => 0x3
  | .carryDropped => 0x4
  | .invalidPair => 0x5

/-! ### Words -/

/-- The 11 bits of a net word, `{KIND, LAST, DATA}` (R113). -/
def NetWord.bits (w : NetWord) : BitVec 11 :=
  w.kind.bits ++ BitVec.ofBool w.last ++ w.data

/-- The net word of 11 bits (R113). -/
def NetWord.ofBits (b : BitVec 11) : NetWord where
  kind := Kind.ofBits (b.extractLsb' 9 2)
  last := b.getLsbD 8
  data := b.extractLsb' 0 8

/-- The 10 bits of a result word, `{KIND, DATA}` (R117); a FAIL carries `{0000, cause}`. -/
def ResWord.bits : ResWord → BitVec 10
  | .byte b => 0b00#2 ++ b
  | .done => 0b01#2 ++ 0x00#8
  | .fail c => 0b10#2 ++ 0x0#4 ++ c.bits

/-- The 8 bits of an event word, `{CODE, ARG}` (R119). -/
def Event.bits (e : Event) : BitVec 8 :=
  e.code.bits ++ e.arg

/-- The command word of `2*LEN_W + 2` bits: N lowest, then M, then OP (R116). -/
def CmdWord.ofBits (lenW bits : Nat) : CmdWord where
  op := BitVec.ofNat 2 (bits / 2 ^ (2 * lenW))
  n := bits % 2 ^ lenW
  m := bits / 2 ^ lenW % 2 ^ lenW

/-- The bits of a command word (R116). -/
def CmdWord.bits (lenW : Nat) (c : CmdWord) : Nat :=
  c.op.toNat * 2 ^ (2 * lenW) + c.m % 2 ^ lenW * 2 ^ lenW + c.n % 2 ^ lenW

/-- OP of the START command (R116). -/
def opStart : BitVec 2 := 0b01

/-- A BYTE word (R113). -/
def byteWord (last : Bool) (b : Byte) : NetWord := { kind := .byte, last := last, data := b }

/-- The CLOSE word a unit emits, its unused fields 0 (R113, R115). -/
def closeWord : NetWord := { kind := .close, last := false, data := 0x00 }

/-- The EOF word the transport delivers (R94, R113), its unused fields 0 (DESIGN CHOICE, assumption
20). -/
def eofWord : NetWord := { kind := .eof, last := false, data := 0x00 }

/-- The IOERR word the transport delivers (R95, R113), its unused fields 0 (DESIGN CHOICE, assumption
20). -/
def ioerrWord : NetWord := { kind := .ioerr, last := false, data := 0x00 }

/-! ### Decode vectors -/

/-- SE's decode vector for the word at the head of `SE.rx`, with `SM = (DATA == SE.SENT)` (R130). -/
def SE.vector (u : SE) (w : NetWord) : BitVec 6 :=
  seDvBits u.st.bits u.cv w.kind.bits (w.data == u.sent)

/-- CF's decode vector for a command word: `X = {OP, KEYOK}`, `KEYOK = (M >= N)` (R132). -/
def CF.commandVector (c : CF) (w : CmdWord) : BitVec 10 :=
  cfDvBits 0b01 c.cst.bits c.ph c.allSent (cfX w.op (decide (w.n ≤ w.m)))

/-- CF's decode vector for a net word: `X = {KIND, SM}`, `SM = (DATA == CF.SENT)` (R132). -/
def CF.netVector (c : CF) (w : NetWord) : BitVec 10 :=
  cfDvBits 0b10 c.cst.bits c.ph c.allSent (cfX w.kind.bits (w.data == c.sent))

/-- CF's decode vector for an internal step: `X = {00, MORE}`, `MORE = (TXP < 2N)` (R132). -/
def CF.internalVector (c : CF) : BitVec 10 :=
  cfDvBits 0b00 c.cst.bits c.ph c.allSent (cfX 0b00 (decide (c.txp < 2 * c.n)))

/-! ### The interleaved stream -/

/-- The source buffer that holds stream byte `j`: DATA for an even index, KEY for an odd one (R243). -/
def streamSpace (j : Nat) : Space :=
  if j % 2 = 0 then .data else .key

/-- The index of stream byte `j` in its buffer, `j >> 1` on the `LEN_W` lines of `src_addr` (R243,
R245, R57). -/
def streamAddr (lenW j : Nat) : Nat :=
  j / 2 % 2 ^ lenW

end Sys2Proof.Machine
end

