-- ==== Sys2Proof/Machine/Flags.lean ====
section
/-! DEFINITION. The conditions the block computes (R48, R220, R254, R245), the words each step writes
to its output channels (R229, R253), and the read-only status and configuration words (R50 to R55). -/

namespace Sys2Proof.Machine

/-- SE's configuration check (R220). -/
def seCfgLegal (sent : Byte) (pol : Policy) : Bool :=
  !(sym2val sent).isSome && pol != .illegal && !(pol == .mark && sent == markByteValue)

/-- CF's configuration check (R47, R254). -/
def cfCfgLegal (sent : Byte) : Bool :=
  !(sym2val sent).isSome

/-- Whether the stream byte now being sent ends a chunk: it fills the chunk or is the last byte
(R245). -/
def chunkEnds (p : Params) (c : CF) : Bool :=
  c.cc.toNat + 1 == p.chunkMax || c.txp + 1 == 2 * c.n

/-! ### Words written by a step -/

/-- The words an answer of the pair operation puts on `SE.tx`: 1 for OUT and for the CLOSE of a close
(R229). -/
def pairWords : PairResult → Nat
  | .nothing => 0
  | .out _ | .abort | .illegal => 1

/-- The words `Fail` puts on `CF.ntx`: a CLOSE in HS_WAIT and STREAM, none elsewhere (R253, R288). -/
def failNetWords (c : CF) : Nat :=
  if c.cst = .hsWait ∨ c.cst = .stream then 1 else 0

/-! ### Status and configuration words -/

/-- `SE_STATUS` (R50). -/
def SE.statusWord (u : SE) : BitVec 32 :=
  0x00#8 ++ u.cb ++ 0x0#4 ++ u.cause.bits ++ 0x0#4 ++ BitVec.ofBool u.ts ++ BitVec.ofBool u.cv ++
    u.st.bits

/-- `SE_CFG` (R51). -/
def SE.cfgWord (u : SE) : BitVec 16 :=
  0x0#4 ++ BitVec.ofBool u.cfgOk ++ u.pol.bits ++ u.dir.bits ++ u.sent

/-- `CF_STATUS` (R52). -/
def CF.statusWord (c : CF) : BitVec 32 :=
  0x00000#20 ++ c.cause.bits ++ 0b000#3 ++ BitVec.ofBool c.allSent ++ BitVec.ofBool c.ph ++
    c.cst.bits

/-- `CF_CFG` (R53). -/
def CF.cfgWord (p : Params) (c : CF) : BitVec 32 :=
  BitVec.ofNat 16 p.chunkMax ++ 0b0000000#7 ++ BitVec.ofBool c.cfgOk ++ c.sent

/-- The host's read of SE's register number `k`, with the register's width (R50, R51). Reading has no
side effect (R55). -/
def readSeReg (s : State) : Nat → Option (Nat × Nat)
  | 0 => some (32, s.se.statusWord.toNat)
  | 1 => some (16, s.se.cfgWord.toNat)
  | _ => none

/-- The host's read of CF's register number `k`, with the register's width (R52 to R54). -/
def readCfReg (s : State) : Nat → Option (Nat × Nat)
  | 0 => some (32, s.cf.statusWord.toNat)
  | 1 => some (32, (s.cf.cfgWord s.params).toNat)
  | 2 => some (s.params.lenW, s.cf.n)
  | 3 => some (s.params.lenW, s.cf.m)
  | 4 => some (s.params.lenW + 1, s.cf.txp)
  | 5 => some (16, s.cf.cc.toNat)
  | _ => none

end Sys2Proof.Machine
end

