-- ==== Sys2Proof/Machine/Ops.lean ====
section
/-! DEFINITION. The shared operations: reading and writing a source buffer (R81, R82), emitting words
and events (R12), taking a word when the step is enabled (R88, R89), the two entries `Close` and `Fail`
(R287, R288), and the reset steps, the only way back out of them (R286, R310). -/

namespace Sys2Proof.Machine

/-! ### Source buffers -/

/-- What an index nothing was placed at reads as (DESIGN CHOICE, assumption 8). -/
def unfilledByte : Byte := 0x00

/-- `MemRead` (R81). -/
def Memory.read (m : Memory) (a : Nat) : Byte :=
  match m with
  | [] => unfilledByte
  | (x, b) :: rest => if x = a then b else Memory.read rest a

/-- The buffer without a cell at `a`. -/
def Memory.without (m : Memory) (a : Nat) : Memory :=
  m.filter (fun c => c.1 != a)

/-- The buffer with a cell put in its place by index. -/
def Memory.put (m : Memory) (a : Nat) (b : Byte) : Memory :=
  match m with
  | [] => [(a, b)]
  | (x, y) :: rest => if a < x then (a, b) :: (x, y) :: rest else (x, y) :: Memory.put rest a b

/-- The buffer after the host has placed byte `b` at index `a` (R82), in canonical form. -/
def Memory.write (m : Memory) (a : Nat) (b : Byte) : Memory :=
  if b = unfilledByte then m.without a else (m.without a).put a b

/-- The canonical form: indices strictly rising, and no cell that holds what an unlisted index reads
as. -/
def Memory.wf (m : Memory) : Bool :=
  match m with
  | [] => true
  | (a, b) :: rest => b != unfilledByte && rest.all (fun c => a < c.1) && Memory.wf rest

/-- The contents of a source buffer (R80). -/
def State.space (s : State) : Space → Memory
  | .data => s.data
  | .key => s.key

/-- `src_data`, the host's answer to a source read: the byte at that index of the buffer selected (R81).
The read changes nothing (R87). -/
def State.sourceData (s : State) (sel : BitVec 1) (addr : Nat) : Byte :=
  (s.space (Space.ofBits sel)).read addr

/-- Interleaved stream byte `j`, by one source read (R81, R243, R245). -/
def State.streamByte (s : State) (j : Nat) : Byte :=
  s.sourceData (streamSpace j).bits (streamAddr s.params.lenW j)

/-! ### SE -/

/-- `Emit(SE.tx, w)` (R12). -/
def SE.emit (u : SE) (w : NetWord) : SE := { u with tx := u.tx ++ [w] }

/-- `Event(code, arg)` of SE (R12, R294). -/
def SE.event (u : SE) (code : EvCode) (arg : BitVec 4) : SE :=
  { u with ev := u.ev ++ [{ code := code, arg := arg }] }

/-- The carry emptied (R33). -/
def SE.clearCarry (u : SE) : SE := { u with cv := false, cb := 0x00 }

/-- `Close(cause)`: SE's one entry to CLOSED (R287). -/
def SE.close (u : SE) (cause : Cause) : SE :=
  let dropped := if u.cv then u.event .carryDropped 0x0 else u
  let told := dropped.clearCarry.emit closeWord
  let ended := { told with st := .closed, cause := cause, ts := u.ts || cause == Cause.term }
  ended.event .closed cause.bits

/-- A step of SE: the word at the head of `SE.rx` is taken and `act` done with it, when `SE.tx` has
room for the `need` words the step writes; otherwise SE holds (R88, R89, R229). -/
def seTake (need : SE → NetWord → Nat) (act : SE → NetWord → SE) (s : State) :
    Host.Outcome State Fault Refusal :=
  match s.se.rx with
  | [] => .next s
  | w :: rest =>
    if s.se.tx.length + need s.se w ≤ s.params.obuf then
      .next { s with se := act { s.se with rx := rest } w }
    else .next s

/-- The reset step of SE (R310). -/
def SE.resetStep (p : SeCfgPorts) : SE :=
  let latched : SE :=
    { st := .awaitHs, cv := false, cb := 0x00, ts := false, cause := .none, sent := p.sent,
      dir := p.dir, pol := p.pol, cfgOk := seCfgLegal p.sent p.pol, rx := [], tx := [], ev := [] }
  if latched.cfgOk then latched
  else
    ({ latched with st := .closed, cause := .cfgIllegal }.emit closeWord).event .closed
      Cause.cfgIllegal.bits

/-! ### CF -/

/-- `Emit(CF.ntx, w)` (R12). -/
def CF.emitNet (c : CF) (w : NetWord) : CF := { c with ntx := c.ntx ++ [w] }

/-- `Emit(CF.res, w)` (R12). -/
def CF.emitRes (c : CF) (w : ResWord) : CF := { c with res := c.res ++ [w] }

/-- `Event(code, arg)` of CF (R12, R294). -/
def CF.event (c : CF) (code : EvCode) (arg : BitVec 4) : CF :=
  { c with ev := c.ev ++ [{ code := code, arg := arg }] }

/-- `Fail(cause)`: CF's one entry to FAIL (R288). -/
def CF.fails (c : CF) (cause : Cause) : CF :=
  let told := if c.cst = .hsWait ∨ c.cst = .stream then c.emitNet closeWord else c
  let reported := told.emitRes (.fail cause)
  { reported with cst := .fail, cause := cause }.event .closed cause.bits

/-- Whether CF's output channels have room for a step's words (R89, R253). -/
def CF.hasRoom (p : Params) (c : CF) (net res : Nat) : Bool :=
  decide (c.ntx.length + net ≤ p.obuf) && decide (c.res.length + res ≤ p.obuf)

/-- A step of CF on the word at the head of `CF.nrx`, or a hold (R88, R89, R253). -/
def cfTakeNet (net res : CF → Nat) (act : CF → NetWord → CF) (s : State) :
    Host.Outcome State Fault Refusal :=
  match s.cf.nrx with
  | [] => .next s
  | w :: rest =>
    if s.cf.hasRoom s.params (net s.cf) (res s.cf) then
      .next { s with cf := act { s.cf with nrx := rest } w }
    else .next s

/-- A step of CF on the word at the head of `CF.cmd`, or a hold (R88, R89, R253). -/
def cfTakeCommand (net res : CF → Nat) (act : CF → CmdWord → CF) (s : State) :
    Host.Outcome State Fault Refusal :=
  match s.cf.cmd with
  | [] => .next s
  | w :: rest =>
    if s.cf.hasRoom s.params (net s.cf) (res s.cf) then
      .next { s with cf := act { s.cf with cmd := rest } w }
    else .next s

/-- An internal step of CF that writes one net word, or a hold (R89, R253). -/
def cfSend (act : CF → CF) (s : State) : Host.Outcome State Fault Refusal :=
  if s.cf.hasRoom s.params 1 0 then .next { s with cf := act s.cf } else .next s

/-- The reset step of CF (R310). -/
def CF.resetStep (p : CfCfgPorts) : CF :=
  let latched : CF :=
    { cst := .idle, ph := false, allSent := false, n := 0, m := 0, txp := 0, cc := 0,
      cause := .none, sent := p.sent, cfgOk := cfCfgLegal p.sent, cmd := [], nrx := [], ntx := [],
      res := [], ev := [] }
  if latched.cfgOk then latched
  else
    ({ latched with cst := .fail, cause := .cfgIllegal }.emitRes (.fail .cfgIllegal)).event .closed
      Cause.cfgIllegal.bits

/-! ### The combinational nets -/

/-- ALPHA answers the byte presented to it (R160, R111). -/
def alphaAnswer (b : Byte) (value : Option (Fin 27)) (s : State) :
    Host.Outcome State Fault Refusal :=
  .next { s with comb := { s.comb with
    alphaByte := b, alphaValue := value,
    alphaSe := byteClass s.se.sent b, alphaCf := byteClass s.cf.sent b } }

/-- XFORM answers the operands presented to it, and ALPHA the symbol of the answer (R162 to R166). -/
def xformAnswer (dir : Dir) (s : State) : Host.Outcome State Fault Refusal :=
  let v := xform s.comb.xd s.comb.xk dir
  .next { s with comb := { s.comb with xOut := v, xSym := val2sym v.val } }

/-- The pair operation answers the bytes presented to it under a policy (R168). -/
def pairAnswer (pol : Policy) (s : State) : Host.Outcome State Fault Refusal :=
  .next { s with comb := { s.comb with pairOut := pairop s.se.dir pol s.comb.db s.comb.kb } }

end Sys2Proof.Machine
end

