-- ==== Sys2Proof/Machine/ByteRows.lean ====
section
/-! DEFINITION. The rows of format `BYTE`: what ALPHA answers for each byte (R110, R160), and its class
relative to the latched sentinels (R111, R133). -/

namespace Sys2Proof.Machine

/-- SYM_A (R110, R160): `'A'` has the value 0. -/
def execSymA (s : State) : Host.Outcome State Fault Refusal :=
  alphaAnswer 0x41 (some 0) s

/-- SYM_B (R110, R160): `'B'` has the value 1. -/
def execSymB (s : State) : Host.Outcome State Fault Refusal :=
  alphaAnswer 0x42 (some 1) s

/-- SYM_C (R110, R160): `'C'` has the value 2. -/
def execSymC (s : State) : Host.Outcome State Fault Refusal :=
  alphaAnswer 0x43 (some 2) s

/-- SYM_D (R110, R160): `'D'` has the value 3. -/
def execSymD (s : State) : Host.Outcome State Fault Refusal :=
  alphaAnswer 0x44 (some 3) s

/-- SYM_E (R110, R160): `'E'` has the value 4. -/
def execSymE (s : State) : Host.Outcome State Fault Refusal :=
  alphaAnswer 0x45 (some 4) s

/-- SYM_F (R110, R160): `'F'` has the value 5. -/
def execSymF (s : State) : Host.Outcome State Fault Refusal :=
  alphaAnswer 0x46 (some 5) s

/-- SYM_G (R110, R160): `'G'` has the value 6. -/
def execSymG (s : State) : Host.Outcome State Fault Refusal :=
  alphaAnswer 0x47 (some 6) s

/-- SYM_H (R110, R160): `'H'` has the value 7. -/
def execSymH (s : State) : Host.Outcome State Fault Refusal :=
  alphaAnswer 0x48 (some 7) s

/-- SYM_I (R110, R160): `'I'` has the value 8. -/
def execSymI (s : State) : Host.Outcome State Fault Refusal :=
  alphaAnswer 0x49 (some 8) s

/-- SYM_J (R110, R160): `'J'` has the value 9. -/
def execSymJ (s : State) : Host.Outcome State Fault Refusal :=
  alphaAnswer 0x4A (some 9) s

/-- SYM_K (R110, R160): `'K'` has the value 10. -/
def execSymK (s : State) : Host.Outcome State Fault Refusal :=
  alphaAnswer 0x4B (some 10) s

/-- SYM_L (R110, R160): `'L'` has the value 11. -/
def execSymL (s : State) : Host.Outcome State Fault Refusal :=
  alphaAnswer 0x4C (some 11) s

/-- SYM_M (R110, R160): `'M'` has the value 12. -/
def execSymM (s : State) : Host.Outcome State Fault Refusal :=
  alphaAnswer 0x4D (some 12) s

/-- SYM_N (R110, R160): `'N'` has the value 13. -/
def execSymN (s : State) : Host.Outcome State Fault Refusal :=
  alphaAnswer 0x4E (some 13) s

/-- SYM_O (R110, R160): `'O'` has the value 14. -/
def execSymO (s : State) : Host.Outcome State Fault Refusal :=
  alphaAnswer 0x4F (some 14) s

/-- SYM_P (R110, R160): `'P'` has the value 15. -/
def execSymP (s : State) : Host.Outcome State Fault Refusal :=
  alphaAnswer 0x50 (some 15) s

/-- SYM_Q (R110, R160): `'Q'` has the value 16. -/
def execSymQ (s : State) : Host.Outcome State Fault Refusal :=
  alphaAnswer 0x51 (some 16) s

/-- SYM_R (R110, R160): `'R'` has the value 17. -/
def execSymR (s : State) : Host.Outcome State Fault Refusal :=
  alphaAnswer 0x52 (some 17) s

/-- SYM_S (R110, R160): `'S'` has the value 18. -/
def execSymS (s : State) : Host.Outcome State Fault Refusal :=
  alphaAnswer 0x53 (some 18) s

/-- SYM_T (R110, R160): `'T'` has the value 19. -/
def execSymT (s : State) : Host.Outcome State Fault Refusal :=
  alphaAnswer 0x54 (some 19) s

/-- SYM_U (R110, R160): `'U'` has the value 20. -/
def execSymU (s : State) : Host.Outcome State Fault Refusal :=
  alphaAnswer 0x55 (some 20) s

/-- SYM_V (R110, R160): `'V'` has the value 21. -/
def execSymV (s : State) : Host.Outcome State Fault Refusal :=
  alphaAnswer 0x56 (some 21) s

/-- SYM_W (R110, R160): `'W'` has the value 22. -/
def execSymW (s : State) : Host.Outcome State Fault Refusal :=
  alphaAnswer 0x57 (some 22) s

/-- SYM_X (R110, R160): `'X'` has the value 23. -/
def execSymX (s : State) : Host.Outcome State Fault Refusal :=
  alphaAnswer 0x58 (some 23) s

/-- SYM_Y (R110, R160): `'Y'` has the value 24. -/
def execSymY (s : State) : Host.Outcome State Fault Refusal :=
  alphaAnswer 0x59 (some 24) s

/-- SYM_Z (R110, R160): `'Z'` has the value 25. -/
def execSymZ (s : State) : Host.Outcome State Fault Refusal :=
  alphaAnswer 0x5A (some 25) s

/-- SYM_SPACE (R110, R160): space has the value 26. -/
def execSymSpace (s : State) : Host.Outcome State Fault Refusal :=
  alphaAnswer 0x20 (some 26) s

/-- SENT_ENC_SERVICE (R111, R5): `'$'` is Invalid to `sym2val`. -/
def execSentEncService (s : State) : Host.Outcome State Fault Refusal :=
  alphaAnswer 0x24 none s

/-- SENT_DEC_SERVICE (R111, R5): `'@'` is Invalid to `sym2val`. -/
def execSentDecService (s : State) : Host.Outcome State Fault Refusal :=
  alphaAnswer 0x40 none s

/-- MARK_BYTE (R110, R168): `'?'` is Invalid to `sym2val`. -/
def execMarkByte (s : State) : Host.Outcome State Fault Refusal :=
  alphaAnswer markByteValue none s

/-- BYTE_INVALID (R160): every other byte is Invalid. -/
def execByteInvalid (b : Byte) (s : State) : Host.Outcome State Fault Refusal :=
  alphaAnswer b none s

end Sys2Proof.Machine
end

