-- ==== Sys2Proof/Machine/CfHandshake.lean ====
section
/-! DEFINITION. CF's handshake operations, state HS_WAIT (R205 to R209), and the illegal word there
(R251). -/

namespace Sys2Proof.Machine

/-- CF_HS_OK (R205): the echo matches. -/
def execCfHsOk (s : State) : Host.Outcome State Fault Refusal :=
  cfTakeNet (fun _ => 0) (fun _ => 0)
    (fun c _ => { c with cst := .stream }.event .hsAccept 0x0) s

/-- CF_HS_BAD (R206): the echo does not match. -/
def execCfHsBad (s : State) : Host.Outcome State Fault Refusal :=
  cfTakeNet failNetWords (fun _ => 1)
    (fun c _ => (c.event .hsReject Cause.hsMismatch.bits).fails .hsMismatch) s

/-- CF_HS_EOF (R207): the server closed without echoing. -/
def execCfHsEof (s : State) : Host.Outcome State Fault Refusal :=
  cfTakeNet failNetWords (fun _ => 1)
    (fun c _ => (c.event .hsReject Cause.hsShort.bits).fails .hsShort) s

/-- CF_HS_ERR (R208): an I/O error while waiting for the echo. -/
def execCfHsErr (s : State) : Host.Outcome State Fault Refusal :=
  cfTakeNet failNetWords (fun _ => 1)
    (fun c _ => (c.event .hsReject Cause.ioerr.bits).fails .ioerr) s

/-- What CF_NET_ILLEGAL does with a KIND-11 word: a handshake failure too in HS_WAIT (R251). -/
def netIllegalStep (c : CF) (_w : NetWord) : CF :=
  (if c.cst = .hsWait then c.event .hsReject Cause.illegalEvt.bits else c).fails .illegalEvt

/-- CF_NET_ILLEGAL.1 (R251): a KIND-11 word in HS_WAIT. -/
def execCfNetIllegal1 (s : State) : Host.Outcome State Fault Refusal :=
  cfTakeNet failNetWords (fun _ => 1) netIllegalStep s

end Sys2Proof.Machine
end

