-- ==== Sys2Proof/Machine/CfSession.lean ====
section
/-! DEFINITION. CF's session operations: START, the interleaver and chunk framer, and the receiving of
results (R240 to R252). -/

namespace Sys2Proof.Machine

/-- What CF_START_OK does with the command taken (R240): the lengths are latched on their `LEN_W` bits
(DESIGN CHOICE, assumption 17) and the handshake byte is sent as a chunk of its own. -/
def startStep (p : Params) (c : CF) (w : CmdWord) : CF :=
  { { c with n := w.n % 2 ^ p.lenW, m := w.m % 2 ^ p.lenW, txp := 0, cc := 0, ph := false,
             allSent := false }.emitNet (byteWord true c.sent) with cst := .hsWait }

/-- CF_START_OK (R240). -/
def execCfStartOk (s : State) : Host.Outcome State Fault Refusal :=
  cfTakeCommand (fun _ => 1) (fun _ => 0) (startStep s.params) s

/-- CF_START_KEYLEN (R241): the key is shorter than the data. -/
def execCfStartKeylen (s : State) : Host.Outcome State Fault Refusal :=
  cfTakeCommand failNetWords (fun _ => 1) (fun c _ => c.fails .keylen) s

/-- CF_CMD_ILLEGAL.1 (R242): OP `00`. -/
def execCfCmdIllegal1 (s : State) : Host.Outcome State Fault Refusal :=
  cfTakeCommand failNetWords (fun _ => 1) (fun c _ => c.fails .illegalEvt) s

/-- CF_CMD_ILLEGAL.2 (R242): OP `10`. -/
def execCfCmdIllegal2 (s : State) : Host.Outcome State Fault Refusal :=
  cfTakeCommand failNetWords (fun _ => 1) (fun c _ => c.fails .illegalEvt) s

/-- CF_CMD_ILLEGAL.3 (R242): OP `11`. -/
def execCfCmdIllegal3 (s : State) : Host.Outcome State Fault Refusal :=
  cfTakeCommand failNetWords (fun _ => 1) (fun c _ => c.fails .illegalEvt) s

/-- What CF_SEND_BYTE does with stream byte `b = s[TXP]` (R245): it is sent, with LAST when it ends a
chunk, and then the one blocking read follows. TXP is written on its `LEN_W + 1` bits (R43). -/
def sendStep (p : Params) (b : Byte) (c : CF) : CF :=
  let last := chunkEnds p c
  { c.emitNet (byteWord last b) with
    txp := (c.txp + 1) % 2 ^ (p.lenW + 1)
    cc := if last then 0 else BitVec.ofNat 16 (c.cc.toNat + 1)
    ph := c.ph || last }

/-- CF_SEND_BYTE (R245). -/
def execCfSendByte (s : State) : Host.Outcome State Fault Refusal :=
  cfSend (sendStep s.params (s.streamByte s.cf.txp)) s

/-- CF_SEND_SENT (R246): the sentinel is sent as a chunk of its own. -/
def execCfSendSent (s : State) : Host.Outcome State Fault Refusal :=
  cfSend (fun c => { c.emitNet (byteWord true c.sent) with allSent := true, ph := true }) s

/-- What CF_RECV_BYTE does with the word taken (R247): the byte is a result, and LAST ends the read
unless everything has been sent. -/
def recvStep (c : CF) (w : NetWord) : CF :=
  { c.emitRes (.byte w.data) with ph := if w.last && !c.allSent then false else c.ph }

/-- CF_RECV_BYTE (R247). -/
def execCfRecvByte (s : State) : Host.Outcome State Fault Refusal :=
  cfTakeNet (fun _ => 0) (fun _ => 1) recvStep s

/-- CF_RECV_TERM (R248): the sentinel returned; it is stripped and the session is complete. -/
def execCfRecvTerm (s : State) : Host.Outcome State Fault Refusal :=
  cfTakeNet (fun _ => 1) (fun _ => 1)
    (fun c _ =>
      { (c.emitRes .done).emitNet closeWord with cst := .done, cause := .term }.event .closed
        Cause.term.bits) s

/-- CF_RECV_EOF (R249): the server closed before the sentinel. -/
def execCfRecvEof (s : State) : Host.Outcome State Fault Refusal :=
  cfTakeNet failNetWords (fun _ => 1) (fun c _ => c.fails .eof) s

/-- CF_RECV_ERR (R250): an I/O error while reading results. -/
def execCfRecvErr (s : State) : Host.Outcome State Fault Refusal :=
  cfTakeNet failNetWords (fun _ => 1) (fun c _ => c.fails .ioerr) s

/-- CF_NET_ILLEGAL.2 (R251): a KIND-11 word in STREAM with `PH = 1`. -/
def execCfNetIllegal2 (s : State) : Host.Outcome State Fault Refusal :=
  cfTakeNet failNetWords (fun _ => 1) netIllegalStep s

/-- CF_DISCARD.1 (R252): a net word in IDLE. -/
def execCfDiscard1 (s : State) : Host.Outcome State Fault Refusal :=
  cfTakeNet (fun _ => 0) (fun _ => 0) (fun c _ => c) s

/-- CF_DISCARD.2 (R252): a net word in DONE. -/
def execCfDiscard2 (s : State) : Host.Outcome State Fault Refusal :=
  cfTakeNet (fun _ => 0) (fun _ => 0) (fun c _ => c) s

/-- CF_DISCARD.3 (R252): a net word in FAIL. -/
def execCfDiscard3 (s : State) : Host.Outcome State Fault Refusal :=
  cfTakeNet (fun _ => 0) (fun _ => 0) (fun c _ => c) s

end Sys2Proof.Machine
end

