-- ==== Sys2Proof/Machine/ConfigRows.lean ====
section
/-! DEFINITION. The rows of formats `CFG_DIR` and `CFG_POL`: what the latched configuration selects
(R125, R165, R166, R168, R220). -/

namespace Sys2Proof.Machine

/-- XFORM_ENC (R165). -/
def execXformEnc (s : State) : Host.Outcome State Fault Refusal :=
  xformAnswer .enc s

/-- XFORM_DEC (R166). -/
def execXformDec (s : State) : Host.Outcome State Fault Refusal :=
  xformAnswer .dec s

/-- POL_SKIP (R168). -/
def execPolSkip (s : State) : Host.Outcome State Fault Refusal :=
  pairAnswer .skip s

/-- POL_MARK (R168). -/
def execPolMark (s : State) : Host.Outcome State Fault Refusal :=
  pairAnswer .mark s

/-- POL_ABORT (R168). -/
def execPolAbort (s : State) : Host.Outcome State Fault Refusal :=
  pairAnswer .abort s

/-- POL_ILLEGAL (R220, R221): the policy code `11` is an illegal configuration. SE enters CLOSED with
cause CFG_ILLEGAL, as `Close(0x9)` does (R287), unless it is CLOSED already, which no later condition
changes (R286). Like any step that writes to `SE.tx`, it holds while there is no room (R89). -/
def execPolIllegal (s : State) : Host.Outcome State Fault Refusal :=
  if s.se.st = .closed then
    .next { s with se := { s.se with pol := .illegal, cfgOk := false } }
  else if s.se.tx.length + 1 ≤ s.params.obuf then
    .next { s with se := { s.se with pol := .illegal, cfgOk := false }.close .cfgIllegal }
  else .next s

end Sys2Proof.Machine
end

