-- ==== Sys2Proof/Machine/SeCodec.lean ====
section
/-! DEFINITION. SE's stream codec operations, state ACTIVE (R180 to R186). -/

namespace Sys2Proof.Machine

/-- SE_DATA (R180): the byte goes into the carry. -/
def execSeData (s : State) : Host.Outcome State Fault Refusal :=
  seTake (fun _ _ => 0) (fun u w => { u with cb := w.data, cv := true }) s

/-- SE_TERM (R181): the sentinel at a data position is echoed and ends the stream. -/
def execSeTerm (s : State) : Host.Outcome State Fault Refusal :=
  seTake (fun _ _ => 2)
    (fun u _ => { u.emit (byteWord false u.sent) with ts := true }.close .term) s

/-- The pair SE_KEY completes: the carried byte and the byte taken (R182). -/
def keyPair (u : SE) (w : NetWord) : PairResult := pairop u.dir u.pol u.cb w.data

/-- What SE_KEY does with the word taken (R182). A pair that fails conversion under the policy code
`11`, which a running SE never holds, takes the fault path of R221 (DEDUCED, assumption 4). -/
def keyStep (u : SE) (w : NetWord) : SE :=
  let cleared := u.clearCarry
  let told :=
    if pairConverts u.cb w.data then cleared
    else cleared.event .invalidPair (0b00#2 ++ u.pol.bits)
  match keyPair u w with
  | .out b => told.emit (byteWord false b)
  | .nothing => told
  | .abort => told.close .invalid
  | .illegal => told.close .cfgIllegal

/-- SE_KEY (R182): the byte completes the pair of the carried byte. -/
def execSeKey (s : State) : Host.Outcome State Fault Refusal :=
  seTake (fun u w => pairWords (keyPair u w)) keyStep s

end Sys2Proof.Machine
end

