-- ==== Sys2Proof/Machine/SeHandler.lean ====
section
/-! DEFINITION. SE's connection handler operations (R222 to R226) and the unreachable state (R131). -/

namespace Sys2Proof.Machine

/-- SE_EOF (R222): the client closed its side while SE is ACTIVE. -/
def execSeEof (s : State) : Host.Outcome State Fault Refusal :=
  seTake (fun _ _ => 1) (fun u _ => u.close .eof) s

/-- SE_IOERR (R224): an I/O error while SE is ACTIVE. -/
def execSeIoerr (s : State) : Host.Outcome State Fault Refusal :=
  seTake (fun _ _ => 1) (fun u _ => u.close .ioerr) s

/-- SE_ILLEGAL (R225): a KIND-11 word; in AWAIT_HS it is a handshake failure too. -/
def execSeIllegal (s : State) : Host.Outcome State Fault Refusal :=
  seTake (fun _ _ => 1)
    (fun u _ =>
      (if u.st = .awaitHs then u.event .hsReject Cause.illegalEvt.bits else u).close .illegalEvt) s

/-- SE_DISCARD (R226): any word while SE is CLOSED is dropped. -/
def execSeDiscard (s : State) : Host.Outcome State Fault Refusal :=
  seTake (fun _ _ => 0) (fun u _ => u) s

/-- SE_RESERVED_STATE (R131): `ST = 11`. No rule enters the state and none says what a word does in
it; R131 and I10 let a model refuse it. -/
def execSeReservedState (_s : State) : Host.Outcome State Fault Refusal :=
  .refused .unreachableState

end Sys2Proof.Machine
end

