-- ==== Sys2Proof/Machine/SeHandshake.lean ====
section
/-! DEFINITION. SE's handshake operations, state AWAIT_HS (R200 to R204). -/

namespace Sys2Proof.Machine

/-- SE_HS_OK (R200): the sentinel is echoed and SE goes ACTIVE. -/
def execSeHsOk (s : State) : Host.Outcome State Fault Refusal :=
  seTake (fun _ _ => 1)
    (fun u _ => { u.emit (byteWord false u.sent) with st := .active }.event .hsAccept 0x0) s

/-- SE_HS_BAD (R201): a byte that is not the sentinel; rejected and closed. -/
def execSeHsBad (s : State) : Host.Outcome State Fault Refusal :=
  seTake (fun _ _ => 1)
    (fun u _ => (u.event .hsReject Cause.hsMismatch.bits).close .hsMismatch) s

/-- SE_HS_EOF (R202): the client closed before its handshake byte. -/
def execSeHsEof (s : State) : Host.Outcome State Fault Refusal :=
  seTake (fun _ _ => 1)
    (fun u _ => (u.event .hsReject Cause.hsShort.bits).close .hsShort) s

/-- SE_HS_ERR (R203): an I/O error before the handshake byte. -/
def execSeHsErr (s : State) : Host.Outcome State Fault Refusal :=
  seTake (fun _ _ => 1)
    (fun u _ => (u.event .hsReject Cause.ioerr.bits).close .ioerr) s

end Sys2Proof.Machine
end

