-- ==== Sys2Proof/Machine/Dispatch.lean ====
section
/-! DEFINITION. The meaning of every instruction. The bits a row leaves free select nothing, so no
meaning reads them (R130, R132); the operands are the word at the head of the channel and the unit's
registers. -/

namespace Sys2Proof.Machine

def exec (i : Instr) (s : State) : Host.Outcome State Fault Refusal :=
  match i with
  | .seHsOk _ => Sys2Proof.Machine.execSeHsOk s
  | .seHsBad _ => Sys2Proof.Machine.execSeHsBad s
  | .seHsEof _ _ => Sys2Proof.Machine.execSeHsEof s
  | .seHsErr _ _ => Sys2Proof.Machine.execSeHsErr s
  | .seIllegal _ _ _ => Sys2Proof.Machine.execSeIllegal s
  | .seData => Sys2Proof.Machine.execSeData s
  | .seTerm => Sys2Proof.Machine.execSeTerm s
  | .seKey _ => Sys2Proof.Machine.execSeKey s
  | .seEof _ _ => Sys2Proof.Machine.execSeEof s
  | .seIoerr _ _ => Sys2Proof.Machine.execSeIoerr s
  | .seDiscard _ _ _ => Sys2Proof.Machine.execSeDiscard s
  | .seReservedState _ _ _ => Sys2Proof.Machine.execSeReservedState s
  | .cfStartOk _ _ => Sys2Proof.Machine.execCfStartOk s
  | .cfStartKeylen _ _ => Sys2Proof.Machine.execCfStartKeylen s
  | .cfCmdIllegal1 _ _ _ => Sys2Proof.Machine.execCfCmdIllegal1 s
  | .cfCmdIllegal2 _ _ _ => Sys2Proof.Machine.execCfCmdIllegal2 s
  | .cfCmdIllegal3 _ _ _ => Sys2Proof.Machine.execCfCmdIllegal3 s
  | .cfHsOk _ _ => Sys2Proof.Machine.execCfHsOk s
  | .cfHsBad _ _ => Sys2Proof.Machine.execCfHsBad s
  | .cfHsEof _ _ _ => Sys2Proof.Machine.execCfHsEof s
  | .cfHsErr _ _ _ => Sys2Proof.Machine.execCfHsErr s
  | .cfNetIllegal1 _ _ _ => Sys2Proof.Machine.execCfNetIllegal1 s
  | .cfNetIllegal2 _ _ => Sys2Proof.Machine.execCfNetIllegal2 s
  | .cfSendByte => Sys2Proof.Machine.execCfSendByte s
  | .cfSendSent => Sys2Proof.Machine.execCfSendSent s
  | .cfRecvByte _ => Sys2Proof.Machine.execCfRecvByte s
  | .cfRecvTerm _ => Sys2Proof.Machine.execCfRecvTerm s
  | .cfRecvEof _ _ => Sys2Proof.Machine.execCfRecvEof s
  | .cfRecvErr _ _ => Sys2Proof.Machine.execCfRecvErr s
  | .cfDiscard1 _ _ _ => Sys2Proof.Machine.execCfDiscard1 s
  | .cfDiscard2 _ _ _ => Sys2Proof.Machine.execCfDiscard2 s
  | .cfDiscard3 _ _ _ => Sys2Proof.Machine.execCfDiscard3 s
  | .symA => Sys2Proof.Machine.execSymA s
  | .symB => Sys2Proof.Machine.execSymB s
  | .symC => Sys2Proof.Machine.execSymC s
  | .symD => Sys2Proof.Machine.execSymD s
  | .symE => Sys2Proof.Machine.execSymE s
  | .symF => Sys2Proof.Machine.execSymF s
  | .symG => Sys2Proof.Machine.execSymG s
  | .symH => Sys2Proof.Machine.execSymH s
  | .symI => Sys2Proof.Machine.execSymI s
  | .symJ => Sys2Proof.Machine.execSymJ s
  | .symK => Sys2Proof.Machine.execSymK s
  | .symL => Sys2Proof.Machine.execSymL s
  | .symM => Sys2Proof.Machine.execSymM s
  | .symN => Sys2Proof.Machine.execSymN s
  | .symO => Sys2Proof.Machine.execSymO s
  | .symP => Sys2Proof.Machine.execSymP s
  | .symQ => Sys2Proof.Machine.execSymQ s
  | .symR => Sys2Proof.Machine.execSymR s
  | .symS => Sys2Proof.Machine.execSymS s
  | .symT => Sys2Proof.Machine.execSymT s
  | .symU => Sys2Proof.Machine.execSymU s
  | .symV => Sys2Proof.Machine.execSymV s
  | .symW => Sys2Proof.Machine.execSymW s
  | .symX => Sys2Proof.Machine.execSymX s
  | .symY => Sys2Proof.Machine.execSymY s
  | .symZ => Sys2Proof.Machine.execSymZ s
  | .symSpace => Sys2Proof.Machine.execSymSpace s
  | .sentEncService => Sys2Proof.Machine.execSentEncService s
  | .sentDecService => Sys2Proof.Machine.execSentDecService s
  | .markByte => Sys2Proof.Machine.execMarkByte s
  | .byteInvalid b => Sys2Proof.Machine.execByteInvalid b s
  | .xformEnc => Sys2Proof.Machine.execXformEnc s
  | .xformDec => Sys2Proof.Machine.execXformDec s
  | .polSkip => Sys2Proof.Machine.execPolSkip s
  | .polMark => Sys2Proof.Machine.execPolMark s
  | .polAbort => Sys2Proof.Machine.execPolAbort s
  | .polIllegal => Sys2Proof.Machine.execPolIllegal s

end Sys2Proof.Machine
end

