-- ==== Sys2Proof/Machine/Transport.lean ====
section
/-! DEFINITION. The host transport (R92 to R98): what each of its moves does. A move whose condition
fails does nothing, so the transport never does what a duty forbids it. -/

namespace Sys2Proof.Machine

/-- One direction of the transport. -/
def State.lane (s : State) : Lane → LaneState
  | .c2s => s.link.c2s
  | .s2c => s.link.s2c

/-- One direction of the transport replaced. -/
def State.setLane (s : State) (lane : Lane) (l : LaneState) : State :=
  match lane with
  | .c2s => { s with link := { s.link with c2s := l } }
  | .s2c => { s with link := { s.link with s2c := l } }

/-- The writer's output channel: `CF.ntx` or `SE.tx` (R92). -/
def State.written (s : State) : Lane → List NetWord
  | .c2s => s.cf.ntx
  | .s2c => s.se.tx

/-- The writer's output channel replaced. -/
def State.setWritten (s : State) (lane : Lane) (ws : List NetWord) : State :=
  match lane with
  | .c2s => { s with cf := { s.cf with ntx := ws } }
  | .s2c => { s with se := { s.se with tx := ws } }

/-- A word put into the reader's input channel: `SE.rx` or `CF.nrx` (R92). -/
def State.pushRead (s : State) (lane : Lane) (w : NetWord) : State :=
  match lane with
  | .c2s => { s with se := { s.se with rx := s.se.rx ++ [w] } }
  | .s2c => { s with cf := { s.cf with nrx := s.cf.nrx ++ [w] } }

/-- The reader's input channel: `SE.rx` or `CF.nrx` (R92). -/
def State.readerChannel (s : State) : Lane → List NetWord
  | .c2s => s.se.rx
  | .s2c => s.cf.nrx

/-- Whether the reader's side has closed: its unit is in a terminal state, the transport has taken its
CLOSE, or the host has reset it (R96, R329). -/
def State.readerClosed (s : State) : Lane → Bool
  | .c2s => s.se.st == .closed || s.link.s2c.closed
  | .s2c => s.cf.cst == .done || s.cf.cst == .fail || s.link.c2s.closed

/-- The data bytes of the BYTE words of a channel. -/
def byteData (ws : List NetWord) : List Byte :=
  (ws.filter (fun w => w.kind == .byte)).map (fun w => w.data)

/-- `NET_BUF` of a direction (R8, R97). -/
def State.netBuf (s : State) : Lane → Option Nat
  | .c2s => s.params.netBufC2s
  | .s2c => s.params.netBufS2c

/-- Whether the transport holds as many bytes of a direction, written and not yet delivered, as it can (R97). -/
def State.full (s : State) (lane : Lane) : Bool :=
  match s.netBuf lane with
  | none => false
  | some k => decide (k ≤ (s.lane lane).buf.length)

/-- The capacity of the reader's input channel, in bytes (R88; DESIGN CHOICE, assumption 24). -/
def State.readerRoom (s : State) : Lane → Option Nat
  | .c2s => s.params.rxRoomC2s
  | .s2c => s.params.rxRoomS2c

/-- Whether the reader's input channel has no room for a further byte (R88). -/
def State.readerFull (s : State) (lane : Lane) : Bool :=
  match s.readerRoom lane with
  | none => false
  | some k => decide (k ≤ (byteData (s.readerChannel lane)).length)

/-- The transport takes the oldest word of the writer's output channel: a BYTE's byte is held for
delivery, a CLOSE closes the direction. It takes none while it is full (R97) or after a CLOSE (R94);
EOF and IOERR words, which no unit emits (R114), stay where they are. -/
def carry (lane : Lane) (s : State) : State :=
  let l := s.lane lane
  match s.written lane with
  | [] => s
  | w :: rest =>
    if s.full lane || l.closed then s
    else match w.kind with
      | .byte => (s.setWritten lane rest).setLane lane { l with buf := l.buf ++ [w.data] }
      | .close => (s.setWritten lane rest).setLane lane { l with closed := true }
      | .eof | .ioerr => s

/-- The transport delivers its oldest byte with LAST as it chooses (R92, R93), where the reader's channel has
room for it (R88). But it ends a read at `RX_CAP` bytes (R8, R93), and it delivers nothing after an EOF or an
IOERR (R96). -/
def deliver (lane : Lane) (last : Bool) (s : State) : State :=
  let l := s.lane lane
  match l.buf with
  | [] => s
  | b :: rest =>
    if !l.ended && !s.readerFull lane &&
        (last || decide (l.chunkLen + 1 < s.params.rxCap)) then
      (s.pushRead lane (byteWord last b)).setLane lane
        { l with buf := rest, chunkLen := if last then 0 else l.chunkLen + 1 }
    else s

/-- Whether EOF may reach the reader: SE always, CF once it has left IDLE, so that an SE's close shows up at CF in
place of the echo and is not discarded before the START (R132, R221, R289; DEDUCED, assumption 30). -/
def State.readerStarted (s : State) : Lane → Bool
  | .c2s => true
  | .s2c => s.cf.cst != .idle

/-- The transport delivers EOF: once the writer has closed, after every byte it wrote before, and only
once (R94), to a CF that has left IDLE (R132, R289). -/
def deliverEof (lane : Lane) (s : State) : State :=
  let l := s.lane lane
  if l.closed && l.buf.isEmpty && !l.ended && s.readerStarted lane then
    (s.pushRead lane eofWord).setLane lane { l with ended := true }
  else s

/-- The transport delivers IOERR in place of the next word, at any point, to a CF in IDLE too (R95, R98; DEDUCED,
assumption 30), but nothing after an EOF or an IOERR (R96). -/
def deliverErr (lane : Lane) (s : State) : State :=
  let l := s.lane lane
  if l.ended then s
  else (s.pushRead lane ioerrWord).setLane lane { l with ended := true }

/-- The transport drops the oldest byte it holds, or when it holds none the oldest word of the writer's
channel, once the reader's side has closed (R96; DESIGN CHOICE, assumption 19). What a writer that has been
reset has written since is for the next connection: it stays until that is made (R313; DEDUCED, assumption
16). -/
def dropWord (lane : Lane) (s : State) : State :=
  if s.readerClosed lane then
    match (s.lane lane).buf with
    | _ :: rest => s.setLane lane { s.lane lane with buf := rest }
    | [] =>
      if (s.lane lane).writerReset then s else s.setWritten lane (s.written lane).tail
  else s

/-- The other direction of the transport. -/
def Lane.other : Lane → Lane
  | .c2s => .s2c
  | .s2c => .c2s

/-- The transport connection of the side that writes `lane` ends, as the host must see to when it resets
that side: its peer gets the bytes already held and then EOF, as after a CLOSE, and nothing more reaches
the side (R329, R94, R96; DEDUCED, assumption 23). -/
def endConnection (lane : Lane) (s : State) : State :=
  (s.setLane lane { s.lane lane with closed := true, writerReset := true }).setLane lane.other
    { s.lane lane.other with buf := [], ended := true, chunkLen := 0 }

/-- Whether the host may connect the transport: it has reset both units since the last connection, and
neither has a net word waiting, so that an SE and a CF serve one connection from reset on (R297, R313; DEDUCED,
assumption 16). -/
def State.betweenSessions (s : State) : Bool :=
  s.link.c2s.writerReset && s.link.s2c.writerReset && s.se.rx.isEmpty && s.cf.nrx.isEmpty

/-- The host connects the transport, empty in both directions (R313 step 3). -/
def connect (s : State) : State :=
  if s.betweenSessions then
    { s with link := { c2s := LaneState.empty, s2c := LaneState.empty } }
  else s

end Sys2Proof.Machine
end

