-- ==== Sys2Proof/Machine/HostMoves.lean ====
section
/-! DEFINITION. The host's other moves (R98): resets, configuration ports, source buffers, commands,
and the taking of results and events. -/

namespace Sys2Proof.Machine

/-- The reset step of SE, from its configuration ports (R310, R45). The host that resets a side also ends
its transport connection (R329). -/
def resetSe (s : State) : State := endConnection .s2c { s with se := SE.resetStep s.sePorts }

/-- The reset step of CF, from its configuration port (R310, R45), and the end of its transport connection
(R329). -/
def resetCf (s : State) : State := endConnection .c2s { s with cf := CF.resetStep s.cfPorts }

/-- Whether a START waits in `CF.cmd` for a CF in IDLE. -/
def State.startWaits (s : State) : Bool :=
  s.cf.cst == .idle && s.cf.cmd.any (fun w => w.op == opStart)

/-- Whether a session is in progress, from START until DONE or FAIL (R82). It begins when the host writes the
START into `CF.cmd`, before which it has placed the buffers (R313 steps 4 and 5; DEDUCED, assumption 25). -/
def State.inSession (s : State) : Bool :=
  s.startWaits || s.cf.cst == .hsWait || s.cf.cst == .stream

/-- The contents of one source buffer replaced. -/
def State.setSpace (s : State) (space : Space) (m : Memory) : State :=
  match space with
  | .data => { s with data := m }
  | .key => { s with key := m }

/-- The host places one byte in a source buffer (R82), at an index the buffer has (R84), and not during
a session (R82, R98, I20; DEDUCED, assumption 21). -/
def place (space : Space) (addr : Nat) (b : Byte) (s : State) :
    Host.Outcome State Fault Refusal :=
  if 2 ^ s.params.lenW ≤ addr then .fault (.noSuchIndex space addr)
  else if s.inSession then .refused .bufferChangedInSession
  else .next (s.setSpace space ((s.space space).write addr b))

/-- Whether the host gives CF this command word: the host of R98 issues a START, and in IDLE; a test
host gives any word at any time (R134; DEDUCED, assumption 22). -/
def State.mayCommand (s : State) (w : CmdWord) : Bool :=
  s.bench || (w.op == opStart && s.cf.cst == .idle)

/-- The host writes a command word into `CF.cmd` (R88, R98, R116). -/
def sendCommand (bits : Nat) (s : State) : State :=
  let w := CmdWord.ofBits s.params.lenW bits
  if s.mayCommand w then { s with cf := { s.cf with cmd := s.cf.cmd ++ [w] } } else s

/-- The host takes the oldest result word (R98). -/
def takeRes (s : State) : State := { s with cf := { s.cf with res := s.cf.res.tail } }

/-- The host takes the oldest event word of SE (R98, R294). -/
def takeSeEv (s : State) : State := { s with se := { s.se with ev := s.se.ev.tail } }

/-- The host takes the oldest event word of CF (R98, R294). -/
def takeCfEv (s : State) : State := { s with cf := { s.cf with ev := s.cf.ev.tail } }

/-- A test host puts a word into a unit's net input channel (R134). The host of R98 has no such move. -/
def benchPut (lane : Lane) (w : NetWord) (s : State) : State :=
  if s.bench then s.pushRead lane w else s

/-- A test host takes the oldest word of a unit's net output channel (R134). With the host of R98 the
transport takes it. -/
def benchTake (lane : Lane) (s : State) : State :=
  if s.bench then s.setWritten lane (s.written lane).tail else s

end Sys2Proof.Machine
end

