-- ==== Sys2Proof/Machine/Schedule.lean ====
section
/-! DEFINITION. How a step is chosen and done. The next move of the script says which agent moves. A
unit's move presents one instruction word to the decoder: the unit's decode vector for the word at the
head of a channel (R130, R132), or the byte or configuration field presented to a combinational unit
(R133, R125). The instruction decoded is executed; a vector that picks no step is a hold (R132). -/

namespace Sys2Proof.Machine

/-- The operands a move presents to a combinational unit, placed on its nets. -/
def present (m : Move) (s : State) : State :=
  match m with
  | .xform d k => { s with comb := { s.comb with xd := d, xk := k } }
  | .policy db kb => { s with comb := { s.comb with db := db, kb := kb } }
  | _ => s

/-- The instruction word a unit's move presents to the decoder, `none` for a move of the host and for a
unit whose channel is empty. -/
def presented (m : Move) (s : State) : Option InstrWord :=
  match m with
  | .se => s.se.rx.head?.map (fun w => .seDv (s.se.vector w))
  | .cfCommand => s.cf.cmd.head?.map (fun w => .cfDv (s.cf.commandVector w))
  | .cfNet => s.cf.nrx.head?.map (fun w => .cfDv (s.cf.netVector w))
  | .cfInternal => some (.cfDv s.cf.internalVector)
  | .alpha b => some (.byte b)
  | .xform _ _ => some (.cfgDir s.se.dir.bits)
  | .policy _ _ => some (.cfgPol s.se.pol.bits)
  | _ => none

/-- The step of a unit on the word presented: the decoded instruction is executed, and a vector that
picks no step is a hold (R132). -/
def unitStep (m : Move) (s : State) : Host.Outcome State Fault Refusal :=
  match presented m s with
  | none => .next s
  | some v =>
    match decode v with
    | .ok i => exec i (present m s)
    | .error _ => .next s

/-- What a move does. -/
def doMove (m : Move) (s : State) : Host.Outcome State Fault Refusal :=
  match m with
  | .pass => .next s
  | .se | .cfCommand | .cfNet | .cfInternal | .alpha _ | .xform _ _ | .policy _ _ => unitStep m s
  | .resetSe => .next (resetSe s)
  | .resetCf => .next (resetCf s)
  | .setSePorts p => .next { s with sePorts := p }
  | .setCfPorts p => .next { s with cfPorts := p }
  | .place space addr b => place space addr b s
  | .command bits => .next (sendCommand bits s)
  | .connect => .next (connect s)
  | .carry lane => .next (carry lane s)
  | .deliver lane last => .next (deliver lane last s)
  | .deliverEof lane => .next (deliverEof lane s)
  | .deliverErr lane => .next (deliverErr lane s)
  | .drop lane => .next (dropWord lane s)
  | .takeRes => .next (takeRes s)
  | .takeSeEv => .next (takeSeEv s)
  | .takeCfEv => .next (takeCfEv s)
  | .benchRx w => .next (benchPut .c2s w s)
  | .benchNrx w => .next (benchPut .s2c w s)
  | .benchTx => .next (benchTake .s2c s)
  | .benchNtx => .next (benchTake .c2s s)

/-- The next move of the script is made and leaves it; with none left nothing happens. -/
def nextMove (s : State) : Host.Outcome State Fault Refusal :=
  match s.script with
  | [] => .next s
  | m :: rest => doMove m { s with script := rest }

end Sys2Proof.Machine
end

