-- ==== Sys2Proof/Machine/Fetch.lean ====
section
/-! DEFINITION. Setting the machine up so that its next step runs one given instruction word (DESIGN
CHOICE, assumption 10). The block has no program: a word is "fetched" when a unit's state and the head of its channel form
it (R103, R130, R132), so these functions put the registers, the channel head and the script into the
condition in which the next step presents exactly that word. -/

namespace Sys2Proof.Machine

/-- A byte that compares with a sentinel as asked. -/
def byteComparing (sent : Byte) (equal : Bool) : Byte :=
  if equal then sent else sent ^^^ 0x01

/-- SE forms the vector `v` next (R130). -/
def withSeVector (v : BitVec 6) (s : State) : State :=
  let w : NetWord :=
    { kind := Kind.ofBits (v.extractLsb' 1 2), last := false,
      data := byteComparing s.se.sent (v.getLsbD 0) }
  { s with
    se := { s.se with st := SeSt.ofBits (v.extractLsb' 4 2), cv := v.getLsbD 3, rx := w :: s.se.rx }
    script := .se :: s.script }

/-- CF with the registers a vector names (R132). -/
def cfWithState (v : BitVec 10) (c : CF) : CF :=
  { c with cst := CfSt.ofBits (v.extractLsb' 5 3), ph := v.getLsbD 4, allSent := v.getLsbD 3 }

/-- CF forms the vector `v` next (R132). For the internal source N is set so that `MORE` is as asked. -/
def withCfVector (v : BitVec 10) (s : State) : State :=
  let src := v.extractLsb' 8 2
  let hi := v.extractLsb' 1 2
  let lo := v.getLsbD 0
  let c := cfWithState v s.cf
  if src = 0b01#2 then
    let w : CmdWord := { op := hi, n := if lo then 0 else 1, m := 0 }
    { s with cf := { c with cmd := w :: c.cmd }, script := .cfCommand :: s.script }
  else if src = 0b10#2 then
    let w : NetWord :=
      { kind := Kind.ofBits hi, last := false, data := byteComparing c.sent lo }
    { s with cf := { c with nrx := w :: c.nrx }, script := .cfNet :: s.script }
  else
    { s with
      cf := { c with n := if lo then c.txp / 2 + 1 else c.txp / 2 }
      script := .cfInternal :: s.script }

/-- The next step presents the word `v` to the decoder. -/
def withWord (v : InstrWord) (s : State) : State :=
  match v with
  | .seDv v => withSeVector v s
  | .cfDv v => withCfVector v s
  | .byte b => { s with script := .alpha b :: s.script }
  | .cfgDir d =>
    { s with se := { s.se with dir := Dir.ofBits d }
             script := .xform s.comb.xd s.comb.xk :: s.script }
  | .cfgPol p =>
    { s with se := { s.se with pol := Policy.ofBits p }
             script := .policy s.comb.db s.comb.kb :: s.script }

/-- The next step presents the table's word; where the table gives no such word, nothing is changed. -/
def withTableWord (nbits w : Nat) (s : State) : State :=
  match tableWord nbits w with
  | none => s
  | some v => withWord v s

end Sys2Proof.Machine
end

