-- ==== Sys2Proof/Machine/Step.lean ====
section
/-! DEFINITION. One step of the machine. -/

namespace Sys2Proof.Machine

/-- One step: the next move of the script (DESIGN CHOICE, assumption 6). -/
def step (s : State) : Host.Outcome State Fault Refusal :=
  nextMove s

/-- The state in which the next step runs the table's word (DESIGN CHOICE, assumption 10). -/
def State.withFetchWord (s : State) (nbits w : Nat) : State :=
  withTableWord nbits w s

end Sys2Proof.Machine
end

