-- ==== Sys2Proof/Machine/Ports.lean ====
section
/-! DEFINITION. The units' ports (R56, R57, R75 to R77): which words a unit is ready to take, the oldest
word of each output channel, the source read it asks for, the status words, and what the host drives. The
ports are read off the state; the cycle in which a word moves is not modelled (R331, assumption 11). -/

namespace Sys2Proof.Machine

/-- The words an SE operation writes to `SE.tx` for the word it takes (R229). -/
def seWordsWritten (i : Instr) (u : SE) (w : NetWord) : Nat :=
  match i with
  | .seTerm => 2
  | .seKey _ => pairWords (keyPair u w)
  | .seData | .seDiscard _ _ _ => 0
  | _ => 1

/-- The words a CF operation writes to `CF.ntx` and to `CF.res` (R253). -/
def cfWordsWritten (i : Instr) (c : CF) : Nat × Nat :=
  match i with
  | .cfStartOk _ _ | .cfSendByte | .cfSendSent => (1, 0)
  | .cfRecvByte _ => (0, 1)
  | .cfRecvTerm _ => (1, 1)
  | .cfHsOk _ _ | .cfDiscard1 _ _ _ | .cfDiscard2 _ _ _ | .cfDiscard3 _ _ _ => (0, 0)
  | _ => (failNetWords c, 1)

/-- The operation CF's move would do, when a decode row picks one and its output channels have room for
its words (R89, R132). -/
def cfEnabled (m : Move) (s : State) : Option Instr :=
  match presented m s with
  | none => none
  | some v =>
    match decode v with
    | .error _ => none
    | .ok i =>
      if s.cf.hasRoom s.params (cfWordsWritten i s.cf).1 (cfWordsWritten i s.cf).2 then some i
      else none

/-- `rx_ready` (R77): the decode vector of the word at the head picks an enabled step. `ST = 11` has
none (R131). That it is 1 whenever one is enabled is the model's choice (DESIGN CHOICE, assumption 11). -/
def seRxReady (s : State) : Bool :=
  match s.se.rx with
  | [] => false
  | w :: _ =>
    s.se.st != .reserved &&
      decide (s.se.tx.length + seWordsWritten (decodeSe (s.se.vector w)) s.se w ≤ s.params.obuf)

/-- SE's outputs (R56); a `valid` is the presence of a word. -/
structure SeOutputs where
  rxReady : Bool
  tx : Option (BitVec 11)
  ev : Option (BitVec 8)
  status : BitVec 32
  cfg : BitVec 16
deriving DecidableEq, Repr

/-- What CF drives on its source read port while `src_req = 1` (R57, R81). -/
structure SourceRequest where
  /-- `src_sel`: 0 for DATA, 1 for KEY. -/
  sel : BitVec 1
  /-- `src_addr`, of `LEN_W` bits. -/
  addr : Nat
deriving DecidableEq, Repr

/-- CF's outputs (R57); a `valid` or a request is the presence of a value. -/
structure CfOutputs where
  cmdReady : Bool
  nrxReady : Bool
  src : Option SourceRequest
  ntx : Option (BitVec 11)
  res : Option (BitVec 10)
  ev : Option (BitVec 8)
  status : BitVec 32
  cfg : BitVec 32
  n : Nat
  m : Nat
  txp : Nat
  cc : BitVec 16
deriving DecidableEq, Repr

/-- What SE drives. While `rst = 1` every `valid` and `ready` is 0 (R75). Otherwise `rx_ready` is 1 exactly when
the word at the head picks an enabled step, where R77 says only when; and a `valid` exactly while its channel
holds a word (DESIGN CHOICE, assumption 11). -/
def seOutputs (rst : Bool) (s : State) : SeOutputs where
  rxReady := !rst && seRxReady s
  tx := if rst then none else s.se.tx.head?.map NetWord.bits
  ev := if rst then none else s.se.ev.head?.map Event.bits
  status := s.se.statusWord
  cfg := s.se.cfgWord

/-- The source read CF asks for: that of an enabled CF_SEND_BYTE (R77, R81, R245; DESIGN CHOICE, assumption 11). -/
def sourceRequest (s : State) : Option SourceRequest :=
  if cfEnabled .cfInternal s = some .cfSendByte then
    some { sel := (streamSpace s.cf.txp).bits, addr := streamAddr s.params.lenW s.cf.txp }
  else none

/-- `src_ack` and `src_data`: the host answers the read CF asks for, inside its step (R57, R81, R98; DESIGN
CHOICE, assumption 11). -/
def sourceAnswer (s : State) : Option Byte :=
  (sourceRequest s).map (fun r => s.sourceData r.sel r.addr)

/-- What CF drives. While `rst = 1` every `valid` and `ready` and `src_req` is 0 (R75). Otherwise each `ready` is
1 exactly when its own channel's word picks an enabled step, where R77 says only when: in IDLE, with a command
and a net word waiting, `cmd_ready` and `nrx_ready` are both 1, though one step takes one of the two words. So
`src_req` is 1 exactly while CF_SEND_BYTE is enabled, and a `valid` exactly while its channel holds a word
(DESIGN CHOICE, assumption 11). -/
def cfOutputs (rst : Bool) (s : State) : CfOutputs where
  cmdReady := !rst && (cfEnabled .cfCommand s).isSome
  nrxReady := !rst && (cfEnabled .cfNet s).isSome
  src := if rst then none else sourceRequest s
  ntx := if rst then none else s.cf.ntx.head?.map NetWord.bits
  res := if rst then none else s.cf.res.head?.map ResWord.bits
  ev := if rst then none else s.cf.ev.head?.map Event.bits
  status := s.cf.statusWord
  cfg := s.cf.cfgWord s.params
  n := s.cf.n
  m := s.cf.m
  txp := s.cf.txp
  cc := s.cf.cc

/-- SE's inputs (R56); a `valid` is the presence of a word. `tx_ready` is the transport's to choose while
it has room (R97, R98). -/
structure SeInputs where
  cfgSent : Byte
  cfgDir : BitVec 1
  cfgPol : BitVec 2
  rx : Option (BitVec 11)
  txRoom : Bool
deriving DecidableEq, Repr

/-- CF's inputs (R57); a `valid` or an acknowledgement is the presence of a value. `ntx_ready` is the
transport's to choose while it has room, and `res_ready` the host's at any time (R97, R98). -/
structure CfInputs where
  cfgSent : Byte
  /-- `cmd_word`, of `2*LEN_W + 2` bits. -/
  cmd : Option Nat
  /-- `src_ack` and `src_data`. -/
  src : Option Byte
  ntxRoom : Bool
  nrx : Option (BitVec 11)
deriving DecidableEq, Repr

/-- What SE is driven with. -/
def seInputs (s : State) : SeInputs where
  cfgSent := s.sePorts.sent
  cfgDir := s.sePorts.dir.bits
  cfgPol := s.sePorts.pol.bits
  rx := s.se.rx.head?.map NetWord.bits
  txRoom := !s.full .s2c

/-- What CF is driven with. -/
def cfInputs (s : State) : CfInputs where
  cfgSent := s.cfPorts.sent
  cmd := s.cf.cmd.head?.map (CmdWord.bits s.params.lenW)
  src := sourceAnswer s
  ntxRoom := !s.full .c2s
  nrx := s.cf.nrx.head?.map NetWord.bits

end Sys2Proof.Machine
end

