-- ==== Sys2Proof/Safety.lean ====
section
/-! DEFINITION. The terms in which the statements speak: when a step is enabled, what the two entries
`Close` and `Fail` leave, runs of scheduled moves, the invariants of SE (R228, R33, R114, R115), of CF
(R258, R42 to R44), of the transport (R88, R93, R97) and of the source buffers, and the states a run can
reach. -/

namespace Sys2Proof.Machine

/-! ### Enabled steps (R89) -/

/-- `w` is at the head of `SE.rx`, `rest` behind it, and `SE.tx` has room for `need` words. -/
abbrev SeHas (s : State) (w : NetWord) (rest : List NetWord) (need : Nat) : Prop :=
  s.se.rx = w :: rest ∧ s.se.tx.length + need ≤ s.params.obuf

/-- `CF.ntx` and `CF.res` have room for `net` and `res` words. -/
abbrev CfRoom (s : State) (net res : Nat) : Prop :=
  s.cf.ntx.length + net ≤ s.params.obuf ∧ s.cf.res.length + res ≤ s.params.obuf

/-- `w` is at the head of `CF.nrx`, `rest` behind it, and the outputs have room. -/
abbrev CfHasNet (s : State) (w : NetWord) (rest : List NetWord) (net res : Nat) : Prop :=
  s.cf.nrx = w :: rest ∧ CfRoom s net res

/-- `w` is at the head of `CF.cmd`, `rest` behind it, and the outputs have room. -/
abbrev CfHasCmd (s : State) (w : CmdWord) (rest : List CmdWord) (net res : Nat) : Prop :=
  s.cf.cmd = w :: rest ∧ CfRoom s net res

/-! ### What the entries leave -/

/-- SE after `Close(x)`, register by register (R287, R285): `dropped` says whether a byte was carried. -/
def SE.closedBy (u : SE) (x : Cause) : SE where
  st := .closed
  cv := false
  cb := 0x00
  ts := u.ts || decide (x = .term)
  cause := x
  sent := u.sent
  dir := u.dir
  pol := u.pol
  cfgOk := u.cfgOk
  rx := u.rx
  tx := u.tx ++ [closeWord]
  ev := u.ev ++ (if u.cv then [{ code := .carryDropped, arg := 0x0 }] else []) ++
    [{ code := .closed, arg := x.bits }]

/-- CF after `Fail(x)`, register by register (R288, R285); `net` says whether a CLOSE is written. -/
def CF.failedBy (c : CF) (x : Cause) (net : Bool) : CF where
  cst := .fail
  ph := c.ph
  allSent := c.allSent
  n := c.n
  m := c.m
  txp := c.txp
  cc := c.cc
  cause := x
  sent := c.sent
  cfgOk := c.cfgOk
  cmd := c.cmd
  nrx := c.nrx
  ntx := c.ntx ++ (if net then [closeWord] else [])
  res := c.res ++ [.fail x]
  ev := c.ev ++ [{ code := .closed, arg := x.bits }]

/-! ### Runs -/

/-- `k` steps, stopping at the first fault or refusal. -/
def run : Nat → State → Host.Outcome State Fault Refusal
  | 0, s => .next s
  | k + 1, s =>
    match Machine.step s with
    | .next t => run k t
    | .fault r => .fault r
    | .refused r => .refused r

/-- `k` steps, in each of which the move `m` is made and nothing else is scheduled. -/
def runMove (k : Nat) (m : Move) (s : State) : Host.Outcome State Fault Refusal :=
  run k { s with script := List.replicate k m }

/-- A word without its LAST bit. -/
def eraseLast (w : NetWord) : NetWord := { w with last := false }

/-- SE without the LAST bits of the words waiting for it. -/
def SE.eraseLasts (u : SE) : SE := { u with rx := u.rx.map eraseLast }

/-- An outcome without the LAST bits of the words waiting for SE. -/
def eraseLasts : Host.Outcome State Fault Refusal → Host.Outcome State Fault Refusal
  | .next s => .next { s with se := s.se.eraseLasts }
  | .fault r => .fault r
  | .refused r => .refused r

/-- A direction's bytes from reader to writer: delivered and waiting for the reader, held by the transport, and
waiting in the writer's output channel (R92). -/
def State.laneBytes (s : State) : Lane → List Byte
  | .c2s => byteData s.se.rx ++ s.link.c2s.buf ++ byteData s.cf.ntx
  | .s2c => byteData s.cf.nrx ++ s.link.s2c.buf ++ byteData s.se.tx

/-- The reference output of a pair of symbols (R192): `val2sym(xform(sym2val d, sym2val k, dir))`. -/
def cipherByte (dir : Dir) (d k : Byte) : Byte :=
  match sym2val d, sym2val k with
  | some dv, some kv => val2sym (xform dv kv dir).val
  | _, _ => Config.errMark

/-- Whether a byte is a symbol (R111). -/
abbrev IsSymbol (b : Byte) : Prop := (sym2val b).isSome = true

/-! ### Invariants -/

/-- A word a unit may write to the network: a BYTE, or a CLOSE with its unused fields 0 (R114, R115). -/
def emittedWord (w : NetWord) : Bool :=
  w.kind == .byte || w == closeWord

/-- A BYTE that SE may write: the sentinel, a symbol, or the MARK byte under MARK, with LAST = 0
(R228.6, R115). -/
def seMayWrite (u : SE) (w : NetWord) : Bool :=
  w.kind != .byte ||
    (!w.last && (w.data == u.sent || (sym2val w.data).isSome ||
      (u.pol == .mark && w.data == markByteValue)))

/-- SE's invariants (R228). Items 5 and 6 speak of the words still in `SE.tx`. -/
structure SE.Inv (p : Params) (u : SE) : Prop where
  /-- R228.1. -/
  carry_active : u.cv = true → u.st = .active
  /-- R228.2, R33. -/
  no_carry_zero : u.cv = false → u.cb = 0x00
  /-- R228.3. -/
  terminated : u.ts = true ↔ u.st = .closed ∧ u.cause = .term
  /-- R228.4. -/
  caused : u.cause ≠ .none ↔ u.st = .closed
  /-- `ST = 11` is never entered (R227). -/
  reachable_state : u.st ≠ .reserved
  /-- R220, R221: `CFG_OK` is the check of the latched configuration, and an illegal one is closed. -/
  config : u.cfgOk = seCfgLegal u.sent u.pol
  /-- R221: the cause CFG_ILLEGAL marks exactly the illegal configurations. -/
  config_closed : u.cfgOk = false ↔ u.cause = .cfgIllegal
  /-- R89: a step waits for room. -/
  tx_fits : u.tx.length ≤ p.obuf
  /-- R114, R115. -/
  tx_words : ∀ w ∈ u.tx, emittedWord w = true
  /-- R228.6. -/
  tx_bytes : ∀ w ∈ u.tx, seMayWrite u w = true
  /-- R228.5: a CLOSE is the last word SE writes, and SE is then CLOSED. -/
  tx_close_last : ∀ w ∈ u.tx.dropLast, w.kind = .byte
  tx_close_closed : ∀ w ∈ u.tx, w.kind = .close → u.st = .closed

/-- Whether CF's state is terminal (R39). -/
def CF.terminal (c : CF) : Bool :=
  c.cst == .done || c.cst == .fail

/-- CF's invariants (R258). Items 5 and 6 speak of the words still in `CF.ntx` and `CF.res`. -/
structure CF.Inv (p : Params) (c : CF) : Prop where
  /-- R258.1. -/
  txp_le : c.txp ≤ 2 * c.n
  /-- R258.2, R44. -/
  cc_mod : c.txp < 2 * c.n → c.cc.toNat = c.txp % p.chunkMax
  /-- R258.3. -/
  cc_zero : c.txp = 2 * c.n → c.cc = 0
  /-- R258.4. -/
  all_sent : c.allSent = true → c.txp = 2 * c.n ∧ c.ph = true
  /-- R258.5. -/
  last_sent : c.cst = .stream → c.ph = true → c.allSent = false →
    ∀ w, c.ntx.getLast? = some w → w.last = true
  /-- R40, R240: before the handshake has passed nothing has been sent. -/
  unsent : c.cst = .idle ∨ c.cst = .hsWait → c.txp = 0 ∧ c.ph = false ∧ c.allSent = false
  /-- R59, R241, R242: lengths are latched only by CF_START_OK. -/
  idle_lengths : c.cst = .idle → c.n = 0 ∧ c.m = 0
  /-- R42, R240: the lengths fit their registers, and the key is long enough. -/
  lengths : c.n < 2 ^ p.lenW ∧ c.m < 2 ^ p.lenW ∧ c.n ≤ c.m
  /-- R116: so do the lengths of the waiting commands. -/
  cmd_lengths : ∀ w ∈ c.cmd, w.n < 2 ^ p.lenW ∧ w.m < 2 ^ p.lenW
  /-- R46. -/
  caused : c.cause ≠ .none ↔ c.terminal = true
  /-- R281: DONE has the cause TERM, and FAIL never has it. -/
  done_term : c.cst = .done ↔ c.cause = .term
  /-- No rule enters `101`, `110` or `111` (R131). -/
  reachable_state : c.cst ≠ .reserved5 ∧ c.cst ≠ .reserved6 ∧ c.cst ≠ .reserved7
  /-- R254. -/
  config : c.cfgOk = cfCfgLegal c.sent
  config_failed : c.cfgOk = false ↔ c.cause = .cfgIllegal
  /-- R89: a step waits for room. -/
  ntx_fits : c.ntx.length ≤ p.obuf
  res_fits : c.res.length ≤ p.obuf
  /-- R114, R115. -/
  ntx_words : ∀ w ∈ c.ntx, emittedWord w = true
  /-- R258.6: a CLOSE is the last word of `CF.ntx`, and CF is then DONE or FAIL. -/
  ntx_close_last : ∀ w ∈ c.ntx.dropLast, w.kind = .byte
  ntx_close_terminal : ∀ w ∈ c.ntx, w.kind = .close → c.terminal = true
  /-- R258.6, R117: a DONE or FAIL is the last word of `CF.res`, and CF is then in that state. -/
  res_end_last : ∀ w ∈ c.res.dropLast, ∃ b, w = .byte b
  res_end_terminal : ∀ w ∈ c.res, (∃ b, w = .byte b) ∨ c.terminal = true

/-- The transport's invariants. A direction never holds more than `NET_BUF` bytes (R97). No more bytes wait in
its reader's channel than that has room for (R88; DESIGN CHOICE, assumption 24); a test host, which puts words
straight into the channel, is not bound by it. A read in progress is shorter than `RX_CAP` (R93). -/
structure State.LaneInv (s : State) (lane : Lane) : Prop where
  held : ∀ k, s.netBuf lane = some k → (s.lane lane).buf.length ≤ k
  channel : s.bench = false → ∀ k, s.readerRoom lane = some k →
    (byteData (s.readerChannel lane)).length ≤ k
  read_short : (s.lane lane).chunkLen < s.params.rxCap

/-- The invariant of the machine. -/
structure State.Inv (s : State) : Prop where
  legal : s.params.Legal
  se : s.se.Inv s.params
  cf : s.cf.Inv s.params
  lanes : ∀ lane, s.LaneInv lane
  data : s.data.wf = true
  key : s.key.wf = true

/-- A state that some run reaches from reset, whatever moves are scheduled, whatever legal parameters the
block was built with, and with either host. -/
inductive Reachable : State → Prop where
  /-- Reset, with any legal parameters, either host and any script. -/
  | reset (p : Params) (bench : Bool) (script : List Move) :
      p.Legal → Reachable { State.reset with params := p, bench := bench, script := script }
  /-- One step. -/
  | step (s t : State) : Reachable s → Machine.step s = .next t → Reachable t

end Sys2Proof.Machine
end

