-- ==== Sys2Proof/Machine/Duties.lean ====
section
/-! DEFINITION. The duties of the host (R98). What it must never do has no move in `doMove` while
`State.bench` is 0, or stops the run (R82, I20); a source read is answered inside its step (R81); and the
connection of a side that is reset ends with its reset (R329). What is left are the duties to act in the
end, which speak of endless runs, and the assumptions of R320 beside them. -/

namespace Sys2Proof.Machine

/-- An endless run: the move `μ k` leads from state `σ k` to the next. -/
def IsRun (σ : Nat → State) (μ : Nat → Move) : Prop :=
  ∀ k, doMove (μ k) (σ k) = .next (σ (k + 1))

/-- A duty that is not put off for ever: after any point there is a state in which it is not due, or in
which a move that serves it is made and has an effect. -/
def Served (σ : Nat → State) (μ : Nat → Move) (due : State → Prop) (serves : Move → Prop) : Prop :=
  ∀ k, ∃ j, k ≤ j ∧ (¬due (σ j) ∨ (serves (μ j) ∧ σ (j + 1) ≠ σ j))

/-- The reset of the unit that writes a direction, which empties its output channels (R310). -/
def Lane.writerResetMove : Lane → Move
  | .c2s => .resetCf
  | .s2c => .resetSe

/-- A run in which the host keeps its duties. -/
structure HostDuties (σ : Nat → State) (μ : Nat → Move) : Prop where
  run : IsRun σ μ
  /-- The host makes no move but those of R98. -/
  conforming : (σ 0).bench = false
  /-- Every word of `CF.ntx` and `SE.tx` is taken in the end, subject to `NET_BUF` (R98, R97), or dropped, to which
  `NET_BUF` is no bar, once the reader's side has closed (R96). Where the writer's connection has ended, it is
  connected anew, so that the word can be taken, or the writer is reset (R313, R310; DEDUCED, assumption 16). -/
  takes : ∀ lane, Served σ μ
    (fun s => s.written lane ≠ [] ∧
      (s.full lane = false ∨ s.readerClosed lane = true ∨ (s.lane lane).closed = true))
    (fun m => m = .carry lane ∨ m = .drop lane ∨ m = .connect ∨ m = lane.writerResetMove)
  /-- Every byte held is delivered in the end (R98, R92), subject to the room in the reader's channel (R88) and
  until an EOF or an IOERR (R95, R96); once the reader's side has closed, it is delivered or dropped, with room or
  not and after an IOERR too (R96; DESIGN CHOICE, assumption 19). -/
  delivers : ∀ lane, Served σ μ
    (fun s => (s.lane lane).buf ≠ [] ∧
      (((s.lane lane).ended = false ∧ s.readerFull lane = false) ∨ s.readerClosed lane = true))
    (fun m => m = .deliver lane true ∨ m = .deliver lane false ∨ m = .drop lane)
  /-- After a CLOSE, EOF is delivered once the bytes before it are (R98, R94), to CF when it has left IDLE (R132;
  DEDUCED, assumption 30). -/
  endsStream : ∀ lane, Served σ μ
    (fun s => (s.lane lane).closed = true ∧ (s.lane lane).buf = [] ∧ (s.lane lane).ended = false ∧
      s.readerStarted lane = true)
    (fun m => m = .deliverEof lane)
  /-- Every word of `CF.res` is taken in the end (R98). -/
  takesResults : Served σ μ (fun s => s.cf.res ≠ []) (fun m => m = .takeRes)

/-- A run in which no unit puts off an enabled step for ever. R13 and R89 say when a step is enabled and not that
it is taken in the end; R320 and R321 take it for granted (DEDUCED, assumption 29). -/
structure UnitsMove (σ : Nat → State) (μ : Nat → Move) : Prop where
  se : Served σ μ (fun s => seRxReady s = true) (fun m => m = .se)
  command : Served σ μ (fun s => (cfEnabled .cfCommand s).isSome = true) (fun m => m = .cfCommand)
  net : Served σ μ (fun s => (cfEnabled .cfNet s).isSome = true) (fun m => m = .cfNet)
  internal : Served σ μ (fun s => (cfEnabled .cfInternal s).isSome = true) (fun m => m = .cfInternal)

/-- CF waits in its blocking read, of which the transport has delivered bytes, without LAST, and no end. -/
def State.inOpenRead (s : State) : Prop :=
  s.cf.cst = .stream ∧ s.cf.ph = true ∧ s.cf.nrx = [] ∧ s.link.s2c.chunkLen ≠ 0 ∧
    s.link.s2c.ended = false

/-- The assumptions under which R320 says that a session of `n` data and `m` key bytes ends, of a run that
begins with its START in `CF.cmd`. R320 lists `sentinel` to `noError` and `drains`. That it takes for granted
`units`, `noReset`, `readsEnd`, `inv` and `start` as well is the model's reading (DEDUCED, assumptions 9 and
29). -/
structure LiveSession (σ : Nat → State) (μ : Nat → Move) (n m : Nat) : Prop where
  /-- The transport keeps its duties. -/
  duties : HostDuties σ μ
  /-- Not in R320's list: no unit puts off an enabled step for ever (assumption 29). -/
  units : UnitsMove σ μ
  /-- CF and SE share a legal sentinel. -/
  sentinel : (σ 0).se.sent = (σ 0).cf.sent ∧ (σ 0).se.cfgOk = true ∧ (σ 0).cf.cfgOk = true
  /-- `CHUNK_MAX >= 2`. -/
  chunk : 2 ≤ (σ 0).params.chunkMax
  /-- Every stream byte is a symbol, or the policy is not SKIP. The stream is what the buffers hold in the
  session. -/
  symbols : (σ 0).se.pol ≠ .skip ∨
    ∀ k i, (σ k).inSession = true → i < n →
      IsSymbol ((σ k).data.read i) ∧ IsSymbol ((σ k).key.read i)
  /-- `NET_BUF` is unbounded or at least `n + 1` in the S→C direction. -/
  room : ∀ k, (σ 0).netBuf .s2c = some k → n + 1 ≤ k
  /-- No IOERR is drawn. -/
  noError : ∀ k lane, μ k ≠ .deliverErr lane
  /-- Not in R320's list: no unit is reset (assumption 29). -/
  noReset : ∀ k, μ k ≠ .resetSe ∧ μ k ≠ .resetCf
  /-- Not in R320's list: the transport does not leave CF for ever in a read without an end (assumption 9). -/
  readsEnd : ∀ k, ∃ j, k ≤ j ∧ ¬(σ j).inOpenRead
  /-- The host drains the event channels; of `CF.res` this is one of its duties. -/
  drains : Served σ μ (fun s => s.se.ev ≠ []) (fun m => m = .takeSeEv) ∧
    Served σ μ (fun s => s.cf.ev ≠ []) (fun m => m = .takeCfEv)
  /-- The registers are as the machine can have them, and its parameters legal. -/
  inv : (σ 0).Inv
  /-- Both units are as their reset steps left them, the transport is connected and empty, and the START is
  the only word there is, with a key that is long enough. -/
  start : (σ 0).se.st = .awaitHs ∧ (σ 0).se.rx = [] ∧ (σ 0).se.tx = [] ∧ (σ 0).cf.cst = .idle ∧
    (σ 0).cf.nrx = [] ∧ (σ 0).cf.ntx = [] ∧ (σ 0).cf.res = [] ∧
    (σ 0).cf.cmd = [{ op := opStart, n := n, m := m }] ∧ n ≤ m ∧
    (σ 0).link = { c2s := LaneState.empty, s2c := LaneState.empty }

end Sys2Proof.Machine
end

