-- ==== Sys2Proof/Machine/Trace.lean ====
section
/-! DEFINITION. The trace syntax, the block's "assembly" (R134, R135): its lines, the words and moves
they stand for, the macros, and what a trace expects of a unit. -/

namespace Sys2Proof.Machine

/-- A unit that a trace names. -/
inductive TraceUnit where
  | se
  | cf
deriving DecidableEq, Repr

/-- A field that an `==` line can name: a register (R32 to R47), or a status or configuration word (R50 to R53).
Both units have fields `CAUSE`, `SENT` and `CFG_OK`. -/
inductive TraceField where
  | st
  | cv
  | cb
  | ts
  | seCause
  | seSent
  | dir
  | pol
  | seCfgOk
  | seStatus
  | seCfg
  | cst
  | ph
  | allSent
  | n
  | m
  | txp
  | cc
  | cfCause
  | cfSent
  | cfCfgOk
  | cfStatus
  | cfCfg
deriving DecidableEq, Repr

/-- The value of a field, in the code its rule gives it. -/
def TraceField.value (s : State) : TraceField → Nat
  | .st => s.se.st.bits.toNat
  | .cv => s.se.cv.toNat
  | .cb => s.se.cb.toNat
  | .ts => s.se.ts.toNat
  | .seCause => s.se.cause.bits.toNat
  | .seSent => s.se.sent.toNat
  | .dir => s.se.dir.bits.toNat
  | .pol => s.se.pol.bits.toNat
  | .seCfgOk => s.se.cfgOk.toNat
  | .seStatus => s.se.statusWord.toNat
  | .seCfg => s.se.cfgWord.toNat
  | .cst => s.cf.cst.bits.toNat
  | .ph => s.cf.ph.toNat
  | .allSent => s.cf.allSent.toNat
  | .n => s.cf.n
  | .m => s.cf.m
  | .txp => s.cf.txp
  | .cc => s.cf.cc.toNat
  | .cfCause => s.cf.cause.bits.toNat
  | .cfSent => s.cf.sent.toNat
  | .cfCfgOk => s.cf.cfgOk.toNat
  | .cfStatus => s.cf.statusWord.toNat
  | .cfCfg => (s.cf.cfgWord s.params).toNat

/-- One line of a trace (R134). A word line carries the word itself. -/
inductive TraceLine where
  /-- `UNIT SE sent= dir= pol=`. -/
  | unitSe (p : SeCfgPorts)
  /-- `UNIT CF sent= chunk_max=`. -/
  | unitCf (p : CfCfgPorts) (chunkMax : Nat)
  /-- `BUF DATA "…"` and `BUF KEY "…"`. -/
  | buf (space : Space) (text : List Byte)
  /-- `RX …`. -/
  | rx (w : NetWord)
  /-- `NRX …`. -/
  | nrx (w : NetWord)
  /-- `CMD OP= N= M=`; `CMD START` has OP `01`. -/
  | cmd (w : CmdWord)
  /-- `-> TX …`. -/
  | outTx (w : NetWord)
  /-- `-> NTX …`. -/
  | outNtx (w : NetWord)
  /-- `-> RES …`. -/
  | outRes (w : ResWord)
  /-- `-> EV code,arg`, of the unit traced. -/
  | outEv (unit : TraceUnit) (e : Event)
  /-- `== field=value …`. -/
  | state (fields : List (TraceField × Nat))
deriving DecidableEq, Repr

/-- `RSVD`, the KIND-11 word (R134). -/
def rsvdWord : NetWord := { kind := .close, last := false, data := 0x00 }

/-! ### Macros (R135) -/

/-- `CHUNK "s"`: one BYTE word a character, LAST on the final one only. -/
def chunkWords : List Byte → List NetWord
  | [] => []
  | [b] => [byteWord true b]
  | b :: c :: rest => byteWord false b :: chunkWords (c :: rest)

/-- `SPLIT [l1,l2,…] "s"`: consecutive chunks of the lengths given, taken from `s` in order. -/
def splitWords : List Nat → List Byte → List NetWord
  | [], _ => []
  | l :: ls, s => chunkWords (s.take l) ++ splitWords ls (s.drop l)

/-- The interleaved stream of data and key bytes, data then key at each position (R112). -/
def interleave : List Byte → List Byte → List Byte
  | d :: ds, k :: ks => d :: k :: interleave ds ks
  | _, _ => []

/-- `PAIRS "d" "k" [l1,…]`. -/
def pairWordsOf (d k : List Byte) (lens : List Nat) : List NetWord :=
  splitWords lens (interleave d k)

/-- The `RX` lines of a macro's words. -/
def rxLines (ws : List NetWord) : List TraceLine := ws.map .rx

/-- The `NRX` lines of a macro's words. -/
def nrxLines (ws : List NetWord) : List TraceLine := ws.map .nrx

/-- `-> TX TEXT "s"`. -/
def txText (s : List Byte) : List TraceLine := s.map (fun b => .outTx (byteWord false b))

/-- `-> RES TEXT "s"`. -/
def resText (s : List Byte) : List TraceLine := s.map (fun b => .outRes (.byte b))

/-! ### What a trace does -/

/-- The moves by which the host places a text in a source buffer, from an index on. A `BUF` line places its text
from index 0 and leaves what the buffer holds past the text's end, a point R134 leaves open (DESIGN CHOICE,
assumption 31). -/
def placeMoves (space : Space) : Nat → List Byte → List Move
  | _, [] => []
  | a, b :: rest => .place space a b :: placeMoves space (a + 1) rest

/-- The moves of one line up to the point where it is compared. A unit's ports are set and it is reset, a buffer
is filled, or a word is put into a channel and the unit tries what waits in it; at an `NTX` line CF's internal step
is tried. When a traced unit steps R134 leaves open (DESIGN CHOICE, assumption 27). -/
def TraceLine.moves (lenW : Nat) : TraceLine → List Move
  | .unitSe p => [.setSePorts p, .resetSe]
  | .unitCf p _ => [.setCfPorts p, .resetCf]
  | .buf space text => placeMoves space 0 text
  | .rx w => [.benchRx w, .se]
  | .nrx w => [.benchNrx w, .cfNet]
  | .cmd w => [.command (w.bits lenW), .cfCommand]
  | .outNtx _ => [.cfInternal]
  | .outTx _ | .outRes _ | .outEv _ _ | .state _ => []

/-- The moves of one line from there on: at a line that expects a word the test host takes one, and the unit again
tries what waits for it, `k` times (DESIGN CHOICE, assumption 27). -/
def TraceLine.takes (k : Nat) : TraceLine → List Move
  | .outTx _ => .benchTx :: List.replicate k .se
  | .outNtx _ => .benchNtx :: List.replicate k .cfNet
  | .outRes _ => .takeRes :: List.replicate k .cfNet
  | .outEv .se _ => [.takeSeEv]
  | .outEv .cf _ => [.takeCfEv]
  | .unitSe _ | .unitCf _ _ | .buf _ _ | .rx _ | .nrx _ | .cmd _ | .state _ => []

/-- Whether a state is as a line expects it: the word is the oldest in its channel, or every field named has its
value. A line that gives the unit something expects nothing. -/
def TraceLine.agrees (s : State) : TraceLine → Bool
  | .outTx w => s.se.tx.head? == some w
  | .outNtx w => s.cf.ntx.head? == some w
  | .outRes w => s.cf.res.head? == some w
  | .outEv .se e => s.se.ev.head? == some e
  | .outEv .cf e => s.cf.ev.head? == some e
  | .state fields => fields.all (fun f => f.1.value s == f.2)
  | .unitSe _ | .unitCf _ _ | .buf _ _ | .rx _ | .nrx _ | .cmd _ => true

/-- The `CHUNK_MAX` of the instance a trace is run on: its last `UNIT CF` line's, or the one given. It is a
parameter of the instance (R8), so it holds for the whole trace, and what two lines that differ in it mean
R134 does not say (DESIGN CHOICE, assumption 28). -/
def traceChunkMax (chunkMax : Nat) : List TraceLine → Nat
  | [] => chunkMax
  | .unitCf _ k :: rest => traceChunkMax k rest
  | .unitSe _ :: rest | .buf _ _ :: rest | .rx _ :: rest | .nrx _ :: rest | .cmd _ :: rest
  | .outTx _ :: rest | .outNtx _ :: rest | .outRes _ :: rest | .outEv _ _ :: rest
  | .state _ :: rest => traceChunkMax chunkMax rest

/-- The instances a trace names, wired to its test host. -/
def wireTrace (t : List TraceLine) (s : State) : State :=
  { s with
    bench := true
    params := { s.params with chunkMax := traceChunkMax s.params.chunkMax t } }

/-- Those instances, with the trace's moves scheduled after those already in the script. -/
def loadTrace (t : List TraceLine) (s : State) : State :=
  { wireTrace t s with
    script := s.script ++ t.flatMap (fun l => l.moves s.params.lenW ++ l.takes t.length) }

/-- Moves made one after another, up to a stop. -/
def doMoves : List Move → State → Host.Outcome State Fault Refusal
  | [], s => .next s
  | m :: rest, s =>
    match doMove m s with
    | .next t => doMoves rest t
    | .fault r => .fault r
    | .refused r => .refused r

/-- Whether every line is as expected when the lines are gone through in order. -/
def linesHold (k : Nat) : List TraceLine → State → Bool
  | [], _ => true
  | l :: rest, s =>
    match doMoves (l.moves s.params.lenW) s with
    | .fault _ | .refused _ => false
    | .next t =>
      l.agrees t &&
        match doMoves (l.takes k) t with
        | .fault _ | .refused _ => false
        | .next u => linesHold k rest u

/-- Whether the units emit the words a trace lists, each channel's in their order, and are in the states it lists
(R134). Of words that they emit beside those R134 says nothing, and neither does this (DESIGN CHOICE, assumption
27). -/
def traceHolds (t : List TraceLine) (s : State) : Bool :=
  linesHold t.length t (wireTrace t s)

/-- The bits of a line's word, in the encoding R134 gives; a line that is no word has none. -/
def TraceLine.bits (lenW : Nat) : TraceLine → Option Nat
  | .rx w | .nrx w | .outTx w | .outNtx w => some w.bits.toNat
  | .cmd w => some (w.bits lenW)
  | .outRes w => some w.bits.toNat
  | .outEv _ e => some e.bits.toNat
  | .unitSe _ | .unitCf _ _ | .buf _ _ | .state _ => none

end Sys2Proof.Machine
end

