-- ==== Sys2Proof/Certificates/Slice0/Obligations.lean ====
section
/-! DEFINITION. The statements for the provers. Each says a rule of spec/ of every state and operand that
meets its hypotheses; an equation `exec i s = .next {s with …}` is also the frame: everything it does not
name is as before, the source buffers, the other unit, the transport and the ports included. -/

open Sys2Proof Sys2Proof.Machine

/-! ### The alphabet codec and the cipher transform -/

/-- R160: SYM2VAL on every byte. -/
def Obligations.SymbolValues : Prop :=
  ∀ b : Byte,
    (0x41 ≤ b.toNat → b.toNat ≤ 0x5A →
      ∃ v : Fin 27, sym2val b = some v ∧ v.val = b.toNat - 0x41) ∧
    (b = 0x20 → sym2val b = some 26) ∧
    (¬(0x41 ≤ b.toNat ∧ b.toNat ≤ 0x5A) → b ≠ 0x20 → sym2val b = none)

/-- The alphabet round trip, both ways, which R164 marks as derived from R160 and R162. -/
def Obligations.AlphabetRoundTrip : Prop :=
  (∀ (b : Byte) (v : Fin 27), sym2val b = some v → val2sym v.val = b) ∧
    ∀ v : Fin 27, sym2val (val2sym v.val) = some v

/-- R165, R166: the two directions of the transform, over the integers. -/
def Obligations.TransformValues : Prop :=
  ∀ d k : Fin 27,
    ((xform d k .enc).val : Int) = ((d.val : Int) + k.val) % 27 ∧
    ((xform d k .dec).val : Int) = ((d.val : Int) - k.val + 27) % 27

/-- The two directions are mutual inverses: R167, whose second equation the spec marks as derived from
R165 and R166. -/
def Obligations.TransformInverse : Prop :=
  ∀ d k : Fin 27,
    xform (xform d k .enc) k .dec = d ∧ xform (xform d k .dec) k .enc = d

/-- For a fixed data value and direction the transform is a bijection of the key, which R171 marks as
derived from R165 and R166. -/
def Obligations.TransformKeyBijective : Prop :=
  ∀ (d : Fin 27) (dir : Dir) (v : Fin 27),
    ∃ k, xform d k dir = v ∧ ∀ k', xform d k' dir = v → k' = k

/-- R160, R111 for the rows of format `BYTE`, SYM_A to SYM_Z, SYM_SPACE, the two sentinel rows, MARK_BYTE
and BYTE_INVALID: the row of a byte is decoded from it and completes, with the value `sym2val` gives and the
byte's classes, and nothing else changed; and every byte has a row. The nets that keep the answer are the
model's own fields (DESIGN CHOICE, assumption 5), and the characters' bytes are ASCII (UNVERIFIED, assumption
14). The classes are those of R111: SYMBOL for a symbol, SENTINEL for the sentinel, OTHER for the rest. A
symbol latched as sentinel, an illegal configuration, fits two of them, and the model answers SYMBOL (DESIGN
CHOICE, assumption 26). -/
def Obligations.ByteRowsAnswer : Prop :=
  (∀ (i : Instr) (b : Byte) (s : State), i.wellFormed = true → encode i = .byte b →
    decode (.byte b) = .ok i ∧
    exec i s = .next { s with comb := { s.comb with
      alphaByte := b, alphaValue := sym2val b,
      alphaSe := byteClass s.se.sent b, alphaCf := byteClass s.cf.sent b } }) ∧
  (∀ b : Byte, ∃ i : Instr, i.wellFormed = true ∧ encode i = .byte b) ∧
  ∀ sent b : Byte,
    ((sym2val b).isSome = true → byteClass sent b = .symbol) ∧
    (sym2val b = none → b = sent → byteClass sent b = .sentinel) ∧
    (sym2val b = none → b ≠ sent → byteClass sent b = .other)

/-- R125, R165, R166 for the rows of format `CFG_DIR`: `DIR = 0` selects XFORM_ENC and `DIR = 1`
XFORM_DEC, which complete with the transform of the operands presented and its symbol, on nets that are
the model's own fields (DESIGN CHOICE, assumption 5). -/
def Obligations.DirectionRowsAnswer : Prop :=
  ∀ s : State,
    decode (.cfgDir Dir.enc.bits) = .ok .xformEnc ∧ decode (.cfgDir Dir.dec.bits) = .ok .xformDec ∧
    exec .xformEnc s = .next { s with comb := { s.comb with
      xOut := xform s.comb.xd s.comb.xk .enc,
      xSym := val2sym ((s.comb.xd.val + s.comb.xk.val) % 27) } } ∧
    exec .xformDec s = .next { s with comb := { s.comb with
      xOut := xform s.comb.xd s.comb.xk .dec,
      xSym := val2sym ((s.comb.xd.val + 27 - s.comb.xk.val) % 27) } }

/-- R168: the pair operation, for a pair that converts and for one that does not, under each policy. -/
def Obligations.PairOperation : Prop :=
  ∀ (dir : Dir) (pol : Policy) (db kb : Byte),
    (∀ dv kv, sym2val db = some dv → sym2val kb = some kv →
      pairop dir pol db kb = .out (val2sym (xform dv kv dir).val)) ∧
    (sym2val db = none ∨ sym2val kb = none →
      (pol = .skip → pairop dir pol db kb = .nothing) ∧
      (pol = .mark → pairop dir pol db kb = .out 0x3F) ∧
      (pol = .abort → pairop dir pol db kb = .abort))

/-- R125, R168 for the rows of format `CFG_POL` that are policies: each completes with the pair
operation's answer under that policy and the latched direction, on a net that is the model's own field
(DESIGN CHOICE, assumption 5). -/
def Obligations.PolicyRowsAnswer : Prop :=
  ∀ s : State,
    decode (.cfgPol Policy.skip.bits) = .ok .polSkip ∧
    decode (.cfgPol Policy.mark.bits) = .ok .polMark ∧
    decode (.cfgPol Policy.abort.bits) = .ok .polAbort ∧
    exec .polSkip s = .next { s with comb := { s.comb with
      pairOut := pairop s.se.dir .skip s.comb.db s.comb.kb } } ∧
    exec .polMark s = .next { s with comb := { s.comb with
      pairOut := pairop s.se.dir .mark s.comb.db s.comb.kb } } ∧
    exec .polAbort s = .next { s with comb := { s.comb with
      pairOut := pairop s.se.dir .abort s.comb.db s.comb.kb } }

/-- R220, R221: the policy code `11` is an illegal configuration. The row completes: SE not yet CLOSED is
closed with cause CFG_ILLEGAL, and an SE already CLOSED stays as it is but for the code and `CFG_OK`.
That the effect is that of `Close(0x9)` outside the reset step too is the model's reading (DEDUCED, assumption
4). -/
def Obligations.IllegalPolicyCloses : Prop :=
  ∀ s : State,
    decode (.cfgPol Policy.illegal.bits) = .ok .polIllegal ∧
    (s.se.st ≠ .closed → s.se.tx.length + 1 ≤ s.params.obuf →
      exec .polIllegal s = .next { s with
        se := ({ s.se with pol := .illegal, cfgOk := false } : SE).closedBy .cfgIllegal }) ∧
    (s.se.st = .closed →
      exec .polIllegal s = .next { s with se := { s.se with pol := .illegal, cfgOk := false } })

/-! ### SE: the handshake -/

/-- R200. -/
def Obligations.HandshakeAccepted : Prop :=
  ∀ (s : State) (w : NetWord) (rest : List NetWord),
    SeHas s w rest 1 → s.se.st = .awaitHs → w.kind = .byte → w.data = s.se.sent →
    decode (.seDv (s.se.vector w)) = .ok (.seHsOk s.se.cv) ∧
    exec (.seHsOk s.se.cv) s = .next { s with se := { s.se with
      rx := rest, st := .active
      tx := s.se.tx ++ [{ kind := .byte, last := false, data := s.se.sent }]
      ev := s.se.ev ++ [{ code := .hsAccept, arg := 0x0 }] } }

/-- R201, R202, R203: the three ways SE rejects a handshake. -/
def Obligations.HandshakeRejected : Prop :=
  ∀ (s : State) (w : NetWord) (rest : List NetWord),
    SeHas s w rest 1 → s.se.st = .awaitHs →
    (w.kind = .byte → w.data ≠ s.se.sent →
      decode (.seDv (s.se.vector w)) = .ok (.seHsBad s.se.cv) ∧
      exec (.seHsBad s.se.cv) s = .next { s with se := ({ s.se with
        rx := rest, ev := s.se.ev ++ [{ code := .hsReject, arg := 0x2 }] } : SE).closedBy .hsMismatch }) ∧
    (w.kind = .eof →
      decode (.seDv (s.se.vector w)) = .ok (.seHsEof s.se.cv (w.data == s.se.sent)) ∧
      exec (.seHsEof s.se.cv (w.data == s.se.sent)) s = .next { s with se := ({ s.se with
        rx := rest, ev := s.se.ev ++ [{ code := .hsReject, arg := 0x3 }] } : SE).closedBy .hsShort }) ∧
    (w.kind = .ioerr →
      decode (.seDv (s.se.vector w)) = .ok (.seHsErr s.se.cv (w.data == s.se.sent)) ∧
      exec (.seHsErr s.se.cv (w.data == s.se.sent)) s = .next { s with se := ({ s.se with
        rx := rest, ev := s.se.ev ++ [{ code := .hsReject, arg := 0x5 }] } : SE).closedBy .ioerr })

/-! ### SE: the stream codec -/

/-- R180. -/
def Obligations.DataByteCarried : Prop :=
  ∀ (s : State) (w : NetWord) (rest : List NetWord),
    SeHas s w rest 0 → s.se.st = .active → s.se.cv = false → w.kind = .byte →
    w.data ≠ s.se.sent →
    decode (.seDv (s.se.vector w)) = .ok .seData ∧
    exec .seData s = .next { s with se := { s.se with rx := rest, cb := w.data, cv := true } }

/-- R181. -/
def Obligations.SentinelTerminates : Prop :=
  ∀ (s : State) (w : NetWord) (rest : List NetWord),
    SeHas s w rest 2 → s.se.st = .active → s.se.cv = false → w.kind = .byte →
    w.data = s.se.sent →
    decode (.seDv (s.se.vector w)) = .ok .seTerm ∧
    exec .seTerm s = .next { s with se := { s.se with
      rx := rest, st := .closed, ts := true, cause := .term, cv := false, cb := 0x00
      tx := s.se.tx ++ [{ kind := .byte, last := false, data := s.se.sent }, closeWord]
      ev := s.se.ev ++ [{ code := .closed, arg := 0x1 }] } }

/-- R182: a key byte, of any value, completes the pair of the carried byte. A pair that converts gives
its cipher byte; one that does not gives INVALID_PAIR and what the policy says. -/
def Obligations.KeyByteCompletesPair : Prop :=
  ∀ (s : State) (w : NetWord) (rest : List NetWord),
    s.se.rx = w :: rest → s.se.st = .active → s.se.cv = true → w.kind = .byte →
    let sm := w.data == s.se.sent
    let u : SE := { s.se with rx := rest, cv := false, cb := 0x00 }
    decode (.seDv (s.se.vector w)) = .ok (.seKey sm) ∧
    (∀ dv kv, sym2val s.se.cb = some dv → sym2val w.data = some kv → SeHas s w rest 1 →
      exec (.seKey sm) s = .next { s with se := { u with
        tx := u.tx ++ [{ kind := .byte, last := false,
                         data := val2sym (xform dv kv s.se.dir).val }] } }) ∧
    (sym2val s.se.cb = none ∨ sym2val w.data = none →
      (s.se.pol = .skip → SeHas s w rest 0 →
        exec (.seKey sm) s = .next { s with se := { u with
          ev := u.ev ++ [{ code := .invalidPair, arg := 0x0 }] } }) ∧
      (s.se.pol = .mark → SeHas s w rest 1 →
        exec (.seKey sm) s = .next { s with se := { u with
          tx := u.tx ++ [{ kind := .byte, last := false, data := 0x3F }]
          ev := u.ev ++ [{ code := .invalidPair, arg := 0x1 }] } }) ∧
      (s.se.pol = .abort → SeHas s w rest 1 →
        exec (.seKey sm) s = .next { s with se := ({ u with
          ev := u.ev ++ [{ code := .invalidPair, arg := 0x2 }] } : SE).closedBy .invalid }))

/-! ### SE: the connection handler -/

/-- R222, R223, R224: EOF and IOERR while ACTIVE. A carried byte is dropped, with CARRY_DROPPED before
CLOSED, and nothing but CLOSE is written. -/
def Obligations.StreamEndsEarly : Prop :=
  ∀ (s : State) (w : NetWord) (rest : List NetWord),
    SeHas s w rest 1 → s.se.st = .active →
    let sm := w.data == s.se.sent
    let dropped : List Event := if s.se.cv then [{ code := .carryDropped, arg := 0x0 }] else []
    (w.kind = .eof →
      decode (.seDv (s.se.vector w)) = .ok (.seEof s.se.cv sm) ∧
      exec (.seEof s.se.cv sm) s = .next { s with se := { s.se with
        rx := rest, st := .closed, cause := .eof, cv := false, cb := 0x00
        tx := s.se.tx ++ [closeWord]
        ev := s.se.ev ++ dropped ++ [{ code := .closed, arg := 0x4 }] } }) ∧
    (w.kind = .ioerr →
      decode (.seDv (s.se.vector w)) = .ok (.seIoerr s.se.cv sm) ∧
      exec (.seIoerr s.se.cv sm) s = .next { s with se := { s.se with
        rx := rest, st := .closed, cause := .ioerr, cv := false, cb := 0x00
        tx := s.se.tx ++ [closeWord]
        ev := s.se.ev ++ dropped ++ [{ code := .closed, arg := 0x5 }] } })

/-- R225: a KIND-11 word in AWAIT_HS, where it is a handshake failure too, and in ACTIVE. -/
def Obligations.IllegalWordCloses : Prop :=
  ∀ (s : State) (w : NetWord) (rest : List NetWord),
    SeHas s w rest 1 → w.kind = .close →
    let sm := w.data == s.se.sent
    let u : SE := { s.se with rx := rest }
    (s.se.st = .awaitHs →
      decode (.seDv (s.se.vector w)) = .ok (.seIllegal false s.se.cv sm) ∧
      exec (.seIllegal false s.se.cv sm) s = .next { s with se := ({ s.se with
        rx := rest, ev := s.se.ev ++ [{ code := .hsReject, arg := 0x8 }] } : SE).closedBy .illegalEvt }) ∧
    (s.se.st = .active →
      decode (.seDv (s.se.vector w)) = .ok (.seIllegal true s.se.cv sm) ∧
      exec (.seIllegal true s.se.cv sm) s = .next { s with se := u.closedBy .illegalEvt })

/-- R226: in CLOSED every word is taken and dropped, and nothing is emitted. -/
def Obligations.ClosedDiscards : Prop :=
  ∀ (s : State) (w : NetWord) (rest : List NetWord),
    SeHas s w rest 0 → s.se.st = .closed →
    let i : Instr := .seDiscard s.se.cv w.kind.bits (w.data == s.se.sent)
    decode (.seDv (s.se.vector w)) = .ok i ∧
    exec i s = .next { s with se := { s.se with rx := rest } }

/-- R131: `ST = 11` is the one state whose words no rule takes, and the model refuses them. -/
def Obligations.ReservedStateRefused : Prop :=
  ∀ (s : State) (w : NetWord), s.se.st = .reserved →
    let i : Instr := .seReservedState s.se.cv w.kind.bits (w.data == s.se.sent)
    decode (.seDv (s.se.vector w)) = .ok i ∧ exec i s = .refused .unreachableState

/-! ### CF: the session -/

/-- R240: a START whose key is long enough. The command's lengths fit `LEN_W` bits, as the word's fields
do (R116). -/
def Obligations.StartAccepted : Prop :=
  ∀ (s : State) (w : CmdWord) (rest : List CmdWord),
    CfHasCmd s w rest 1 0 → s.cf.cst = .idle → w.op = 0b01 → w.n ≤ w.m →
    w.n < 2 ^ s.params.lenW → w.m < 2 ^ s.params.lenW →
    decode (.cfDv (s.cf.commandVector w)) = .ok (.cfStartOk s.cf.ph s.cf.allSent) ∧
    exec (.cfStartOk s.cf.ph s.cf.allSent) s = .next { s with cf := { s.cf with
      cmd := rest, n := w.n, m := w.m, txp := 0, cc := 0, ph := false, allSent := false
      cst := .hsWait
      ntx := s.cf.ntx ++ [{ kind := .byte, last := true, data := s.cf.sent }] } }

/-- R241, R242: a START whose key is too short, and a command that is no START. Each fails before any
network word is written, with N, M, TXP and CC as they were. -/
def Obligations.StartRefused : Prop :=
  ∀ (s : State) (w : CmdWord) (rest : List CmdWord),
    CfHasCmd s w rest 0 1 → s.cf.cst = .idle →
    let ph := s.cf.ph
    let a := s.cf.allSent
    let keyOk := decide (w.n ≤ w.m)
    let c : CF := { s.cf with cmd := rest }
    (w.op = 0b01 → w.m < w.n →
      decode (.cfDv (s.cf.commandVector w)) = .ok (.cfStartKeylen ph a) ∧
      exec (.cfStartKeylen ph a) s = .next { s with cf := c.failedBy .keylen false }) ∧
    (w.op = 0b00 →
      decode (.cfDv (s.cf.commandVector w)) = .ok (.cfCmdIllegal1 ph a keyOk) ∧
      exec (.cfCmdIllegal1 ph a keyOk) s = .next { s with cf := c.failedBy .illegalEvt false }) ∧
    (w.op = 0b10 →
      decode (.cfDv (s.cf.commandVector w)) = .ok (.cfCmdIllegal2 ph a keyOk) ∧
      exec (.cfCmdIllegal2 ph a keyOk) s = .next { s with cf := c.failedBy .illegalEvt false }) ∧
    (w.op = 0b11 →
      decode (.cfDv (s.cf.commandVector w)) = .ok (.cfCmdIllegal3 ph a keyOk) ∧
      exec (.cfCmdIllegal3 ph a keyOk) s = .next { s with cf := c.failedBy .illegalEvt false })

/-- R205. -/
def Obligations.EchoAccepted : Prop :=
  ∀ (s : State) (w : NetWord) (rest : List NetWord),
    CfHasNet s w rest 0 0 → s.cf.cst = .hsWait → w.kind = .byte → w.data = s.cf.sent →
    decode (.cfDv (s.cf.netVector w)) = .ok (.cfHsOk s.cf.ph s.cf.allSent) ∧
    exec (.cfHsOk s.cf.ph s.cf.allSent) s = .next { s with cf := { s.cf with
      nrx := rest, cst := .stream
      ev := s.cf.ev ++ [{ code := .hsAccept, arg := 0x0 }] } }

/-- R206, R207, R208, R251: the four ways a handshake fails at CF. -/
def Obligations.EchoRejected : Prop :=
  ∀ (s : State) (w : NetWord) (rest : List NetWord),
    CfHasNet s w rest 1 1 → s.cf.cst = .hsWait →
    let ph := s.cf.ph
    let a := s.cf.allSent
    let sm := w.data == s.cf.sent
    let rejected (x : BitVec 4) : CF :=
      { s.cf with nrx := rest, ev := s.cf.ev ++ [{ code := .hsReject, arg := x }] }
    (w.kind = .byte → w.data ≠ s.cf.sent →
      decode (.cfDv (s.cf.netVector w)) = .ok (.cfHsBad ph a) ∧
      exec (.cfHsBad ph a) s = .next { s with cf := (rejected 0x2).failedBy .hsMismatch true }) ∧
    (w.kind = .eof →
      decode (.cfDv (s.cf.netVector w)) = .ok (.cfHsEof ph a sm) ∧
      exec (.cfHsEof ph a sm) s = .next { s with cf := (rejected 0x3).failedBy .hsShort true }) ∧
    (w.kind = .ioerr →
      decode (.cfDv (s.cf.netVector w)) = .ok (.cfHsErr ph a sm) ∧
      exec (.cfHsErr ph a sm) s = .next { s with cf := (rejected 0x5).failedBy .ioerr true }) ∧
    (w.kind = .close →
      decode (.cfDv (s.cf.netVector w)) = .ok (.cfNetIllegal1 ph a sm) ∧
      exec (.cfNetIllegal1 ph a sm) s =
        .next { s with cf := (rejected 0x8).failedBy .illegalEvt true })

/-- R245, R243: CF sends stream byte `TXP`, from DATA at an even index and KEY at an odd one, with LAST
when it fills the chunk or is the last stream byte. The byte is read through the source read port, with
`src_sel` 0 for DATA and 1 for KEY (R77, R81); that CF asks for it, and the host answers, in every state in which
the step is enabled is the model's choice (DESIGN CHOICE, assumption 11). N is a length of `LEN_W` bits (R42) and
`CC` counts below `CHUNK_MAX`, which is at most 65535 (R44, R8). -/
def Obligations.StreamByteSent : Prop :=
  ∀ s : State,
    CfRoom s 1 0 → s.cf.cst = .stream → s.cf.ph = false → s.cf.allSent = false →
    s.cf.txp < 2 * s.cf.n → s.cf.n < 2 ^ s.params.lenW →
    s.params.Legal → s.cf.cc.toNat < s.params.chunkMax →
    let j := s.cf.txp
    let b := if j % 2 = 0 then s.data.read (j / 2) else s.key.read ((j - 1) / 2)
    let last := decide (s.cf.cc.toNat + 1 = s.params.chunkMax ∨ j + 1 = 2 * s.cf.n)
    decode (.cfDv s.cf.internalVector) = .ok .cfSendByte ∧
    sourceRequest s = some { sel := if j % 2 = 0 then 0b0 else 0b1, addr := j / 2 } ∧
    sourceAnswer s = some b ∧
    exec .cfSendByte s = .next { s with cf := { s.cf with
      ntx := s.cf.ntx ++ [{ kind := .byte, last := last, data := b }]
      txp := j + 1
      cc := if last then 0 else s.cf.cc + 1
      ph := last } }

/-- R246: CF sends the sentinel as a chunk of its own, and once `AS` is 1 its internal step is disabled, in
any state and with any other register. -/
def Obligations.SentinelSentOnce : Prop :=
  ∀ s : State,
    (CfRoom s 1 0 → s.cf.cst = .stream → s.cf.ph = false → s.cf.allSent = false →
      s.cf.txp = 2 * s.cf.n →
      decode (.cfDv s.cf.internalVector) = .ok .cfSendSent ∧
      exec .cfSendSent s = .next { s with cf := { s.cf with
        ntx := s.cf.ntx ++ [{ kind := .byte, last := true, data := s.cf.sent }]
        allSent := true, ph := true } }) ∧
    (s.cf.allSent = true → decode (.cfDv s.cf.internalVector) ≠ .ok .cfSendSent ∧
      doMove .cfInternal s = .next s)

/-- R247: a result byte; LAST ends the read unless everything has been sent. -/
def Obligations.ResultByteReceived : Prop :=
  ∀ (s : State) (w : NetWord) (rest : List NetWord),
    CfHasNet s w rest 0 1 → s.cf.cst = .stream → s.cf.ph = true → w.kind = .byte →
    w.data ≠ s.cf.sent →
    decode (.cfDv (s.cf.netVector w)) = .ok (.cfRecvByte s.cf.allSent) ∧
    exec (.cfRecvByte s.cf.allSent) s = .next { s with cf := { s.cf with
      nrx := rest, res := s.cf.res ++ [.byte w.data]
      ph := decide (¬(w.last = true ∧ s.cf.allSent = false)) } }

/-- R248: the sentinel is stripped, DONE ends the result and CLOSE the connection. -/
def Obligations.SentinelCompletesSession : Prop :=
  ∀ (s : State) (w : NetWord) (rest : List NetWord),
    CfHasNet s w rest 1 1 → s.cf.cst = .stream → s.cf.ph = true → w.kind = .byte →
    w.data = s.cf.sent →
    decode (.cfDv (s.cf.netVector w)) = .ok (.cfRecvTerm s.cf.allSent) ∧
    exec (.cfRecvTerm s.cf.allSent) s = .next { s with cf := { s.cf with
      nrx := rest, res := s.cf.res ++ [.done], ntx := s.cf.ntx ++ [closeWord]
      cst := .done, cause := .term
      ev := s.cf.ev ++ [{ code := .closed, arg := 0x1 }] } }

/-- R249, R250, R251: EOF, IOERR and a KIND-11 word while receiving. No HS_REJECT event here. -/
def Obligations.ReceivingFails : Prop :=
  ∀ (s : State) (w : NetWord) (rest : List NetWord),
    CfHasNet s w rest 1 1 → s.cf.cst = .stream → s.cf.ph = true →
    let a := s.cf.allSent
    let sm := w.data == s.cf.sent
    let c : CF := { s.cf with nrx := rest }
    (w.kind = .eof →
      decode (.cfDv (s.cf.netVector w)) = .ok (.cfRecvEof a sm) ∧
      exec (.cfRecvEof a sm) s = .next { s with cf := c.failedBy .eof true }) ∧
    (w.kind = .ioerr →
      decode (.cfDv (s.cf.netVector w)) = .ok (.cfRecvErr a sm) ∧
      exec (.cfRecvErr a sm) s = .next { s with cf := c.failedBy .ioerr true }) ∧
    (w.kind = .close →
      decode (.cfDv (s.cf.netVector w)) = .ok (.cfNetIllegal2 a sm) ∧
      exec (.cfNetIllegal2 a sm) s = .next { s with cf := c.failedBy .illegalEvt true })

/-- R252: a net word in IDLE, DONE or FAIL is taken and dropped. -/
def Obligations.IdleAndTerminalDiscard : Prop :=
  ∀ (s : State) (w : NetWord) (rest : List NetWord),
    CfHasNet s w rest 0 0 →
    let x := cfX w.kind.bits (w.data == s.cf.sent)
    let t : State := { s with cf := { s.cf with nrx := rest } }
    (s.cf.cst = .idle →
      decode (.cfDv (s.cf.netVector w)) = .ok (.cfDiscard1 s.cf.ph s.cf.allSent x) ∧
      exec (.cfDiscard1 s.cf.ph s.cf.allSent x) s = .next t) ∧
    (s.cf.cst = .done →
      decode (.cfDv (s.cf.netVector w)) = .ok (.cfDiscard2 s.cf.ph s.cf.allSent x) ∧
      exec (.cfDiscard2 s.cf.ph s.cf.allSent x) s = .next t) ∧
    (s.cf.cst = .fail →
      decode (.cfDv (s.cf.netVector w)) = .ok (.cfDiscard3 s.cf.ph s.cf.allSent x) ∧
      exec (.cfDiscard3 s.cf.ph s.cf.allSent x) s = .next t)

/-! ### Holds and readiness -/

/-- R253: CF's holds. A command outside IDLE and a net word while CF sends pick no operation, and CF's
move on them changes nothing; neither does a move on an empty channel. -/
def Obligations.ClientHolds : Prop :=
  ∀ s : State,
    (∀ w rest, s.cf.cmd = w :: rest →
      s.cf.cst = .hsWait ∨ s.cf.cst = .stream ∨ s.cf.cst = .done ∨ s.cf.cst = .fail →
      decode (.cfDv (s.cf.commandVector w)) = .error .commandOutsideIdle ∧
      doMove .cfCommand s = .next s) ∧
    (∀ w rest, s.cf.nrx = w :: rest → s.cf.cst = .stream → s.cf.ph = false →
      decode (.cfDv (s.cf.netVector w)) = .error .netWordInSendPhase ∧
      doMove .cfNet s = .next s) ∧
    (s.cf.nrx = [] → doMove .cfNet s = .next s) ∧
    (s.cf.cst ≠ .stream ∨ s.cf.ph = true → doMove .cfInternal s = .next s)

/-- R89, R77: SE takes the word at the head exactly when it drives `rx_ready`; when it does not, and the
state is one of the three of R32, nothing changes. -/
def Obligations.ServerTakesWhenReady : Prop :=
  ∀ (s : State) (w : NetWord) (rest : List NetWord), s.se.rx = w :: rest →
    (seRxReady s = true → ∃ t, doMove .se s = .next t ∧ t.se.rx = rest) ∧
    (seRxReady s = false → s.se.st ≠ .reserved → doMove .se s = .next s)

/-- R89, R77, R253: CF takes the word at the head of `CF.nrx` or `CF.cmd` exactly when it is ready for that
channel, and makes its internal step, which writes one word to `CF.ntx`, exactly when that is enabled; otherwise
nothing changes. Without room in `CF.ntx` the internal step is not enabled, and an empty `CF.cmd` gives
nothing to take. -/
def Obligations.ClientTakesWhenReady : Prop :=
  (∀ (s : State) (w : NetWord) (rest : List NetWord), s.cf.nrx = w :: rest →
    ((cfEnabled .cfNet s).isSome = true → ∃ t, doMove .cfNet s = .next t ∧ t.cf.nrx = rest) ∧
    (cfEnabled .cfNet s = none → doMove .cfNet s = .next s)) ∧
  (∀ (s : State) (w : CmdWord) (rest : List CmdWord), s.cf.cmd = w :: rest →
    ((cfEnabled .cfCommand s).isSome = true → ∃ t, doMove .cfCommand s = .next t ∧ t.cf.cmd = rest) ∧
    (cfEnabled .cfCommand s = none → doMove .cfCommand s = .next s)) ∧
  ∀ s : State,
    ((cfEnabled .cfInternal s).isSome = true →
      ∃ t w, doMove .cfInternal s = .next t ∧ t.cf.ntx = s.cf.ntx ++ [w]) ∧
    (cfEnabled .cfInternal s = none → doMove .cfInternal s = .next s) ∧
    (s.params.obuf ≤ s.cf.ntx.length →
      cfEnabled .cfInternal s = none ∧ doMove .cfInternal s = .next s) ∧
    (s.cf.cmd = [] → doMove .cfCommand s = .next s)

/-! ### Resets, ports and registers -/

/-- R310, R58, R220, R221: SE's reset step, for a legal and for an illegal configuration. What becomes of
the transport with it is TransportLimits'. -/
def Obligations.ServerReset : Prop :=
  ∀ s : State, ∃ t l, doMove .resetSe s = .next { s with se := t, link := l } ∧
    t.sent = s.sePorts.sent ∧ t.dir = s.sePorts.dir ∧ t.pol = s.sePorts.pol ∧
    t.cv = false ∧ t.cb = 0x00 ∧ t.ts = false ∧ t.rx = [] ∧
    let legal := sym2val s.sePorts.sent = none ∧ s.sePorts.pol ≠ .illegal ∧
      ¬(s.sePorts.pol = .mark ∧ s.sePorts.sent = 0x3F)
    (legal → t.cfgOk = true ∧ t.st = .awaitHs ∧ t.cause = .none ∧ t.tx = [] ∧ t.ev = []) ∧
    (¬legal → t.cfgOk = false ∧ t.st = .closed ∧ t.cause = .cfgIllegal ∧ t.tx = [closeWord] ∧
      t.ev = [{ code := .closed, arg := 0x9 }])

/-- R310, R59, R254: CF's reset step, for a legal and for an illegal sentinel. What becomes of the
transport with it is TransportLimits'. -/
def Obligations.ClientReset : Prop :=
  ∀ s : State, ∃ t l, doMove .resetCf s = .next { s with cf := t, link := l } ∧
    t.sent = s.cfPorts.sent ∧ t.ph = false ∧ t.allSent = false ∧ t.n = 0 ∧ t.m = 0 ∧ t.txp = 0 ∧
    t.cc = 0 ∧ t.cmd = [] ∧ t.nrx = [] ∧ t.ntx = [] ∧ sourceRequest { s with cf := t } = none ∧
    (sym2val s.cfPorts.sent = none →
      t.cfgOk = true ∧ t.cst = .idle ∧ t.cause = .none ∧ t.res = [] ∧ t.ev = []) ∧
    (sym2val s.cfPorts.sent ≠ none →
      t.cfgOk = false ∧ t.cst = .fail ∧ t.cause = .cfgIllegal ∧ t.res = [.fail .cfgIllegal] ∧
        t.ev = [{ code := .closed, arg := 0x9 }])

/-- R50 to R55: the status and configuration words field by field, their reserved bits 0, and the registers the
host reads by number, each with its width; there is no other. R56, R57, R75, R77: what the units drive. While
`rst = 1` no `valid`, no `ready` and no `src_req`; else the oldest word of each output channel, and a `ready`
exactly for a channel whose step is enabled; the status ports show the words above. R77 says a `ready` is 1 only
then: that it is 1 exactly then, so that two are 1 at once where one step takes one word, that a `valid` is 1
exactly while its channel holds a word and `src_req` exactly while CF_SEND_BYTE is enabled, is the model's choice
(DESIGN CHOICE, assumption 11). -/
def Obligations.StatusWords : Prop :=
  (∀ u : SE,
    u.statusWord.extractLsb' 0 2 = u.st.bits ∧ u.statusWord.getLsbD 2 = u.cv ∧
    u.statusWord.getLsbD 3 = u.ts ∧ u.statusWord.extractLsb' 4 4 = 0 ∧
    u.statusWord.extractLsb' 8 4 = u.cause.bits ∧ u.statusWord.extractLsb' 12 4 = 0 ∧
    u.statusWord.extractLsb' 16 8 = u.cb ∧ u.statusWord.extractLsb' 24 8 = 0 ∧
    u.cfgWord.extractLsb' 0 8 = u.sent ∧ u.cfgWord.extractLsb' 8 1 = u.dir.bits ∧
    u.cfgWord.extractLsb' 9 2 = u.pol.bits ∧ u.cfgWord.getLsbD 11 = u.cfgOk ∧
    u.cfgWord.extractLsb' 12 4 = 0) ∧
  (∀ (c : CF) (p : Params),
    c.statusWord.extractLsb' 0 3 = c.cst.bits ∧ c.statusWord.getLsbD 3 = c.ph ∧
    c.statusWord.getLsbD 4 = c.allSent ∧ c.statusWord.extractLsb' 5 3 = 0 ∧
    c.statusWord.extractLsb' 8 4 = c.cause.bits ∧ c.statusWord.extractLsb' 12 20 = 0 ∧
    (c.cfgWord p).extractLsb' 0 8 = c.sent ∧ (c.cfgWord p).getLsbD 8 = c.cfgOk ∧
    (c.cfgWord p).extractLsb' 9 7 = 0 ∧
    (p.Legal → ((c.cfgWord p).extractLsb' 16 16).toNat = p.chunkMax)) ∧
  ∀ s : State,
    readSeReg s 0 = some (32, s.se.statusWord.toNat) ∧
    readSeReg s 1 = some (16, s.se.cfgWord.toNat) ∧ (∀ k, 2 ≤ k → readSeReg s k = none) ∧
    readCfReg s 0 = some (32, s.cf.statusWord.toNat) ∧
    readCfReg s 1 = some (32, (s.cf.cfgWord s.params).toNat) ∧
    readCfReg s 2 = some (s.params.lenW, s.cf.n) ∧ readCfReg s 3 = some (s.params.lenW, s.cf.m) ∧
    readCfReg s 4 = some (s.params.lenW + 1, s.cf.txp) ∧
    readCfReg s 5 = some (16, s.cf.cc.toNat) ∧ (∀ k, 6 ≤ k → readCfReg s k = none) ∧
    seOutputs true s = { rxReady := false, tx := none, ev := none,
                         status := s.se.statusWord, cfg := s.se.cfgWord } ∧
    seOutputs false s = { rxReady := seRxReady s, tx := s.se.tx.head?.map NetWord.bits,
                          ev := s.se.ev.head?.map Event.bits,
                          status := s.se.statusWord, cfg := s.se.cfgWord } ∧
    cfOutputs true s = { cmdReady := false, nrxReady := false, src := none, ntx := none, res := none,
                         ev := none, status := s.cf.statusWord, cfg := s.cf.cfgWord s.params,
                         n := s.cf.n, m := s.cf.m, txp := s.cf.txp, cc := s.cf.cc } ∧
    cfOutputs false s = { cmdReady := (cfEnabled .cfCommand s).isSome,
                          nrxReady := (cfEnabled .cfNet s).isSome, src := sourceRequest s,
                          ntx := s.cf.ntx.head?.map NetWord.bits, res := s.cf.res.head?.map ResWord.bits,
                          ev := s.cf.ev.head?.map Event.bits, status := s.cf.statusWord,
                          cfg := s.cf.cfgWord s.params, n := s.cf.n, m := s.cf.m, txp := s.cf.txp,
                          cc := s.cf.cc }

/-- R113, R117, R119, R282: the eleven bits of a net word hold KIND, LAST and DATA, and every eleven bits are
the word of its fields; the ten bits of a result word hold KIND and DATA, the eight of an event word CODE
and ARG; and the codes of the kinds, the events and the causes. -/
def Obligations.NetWordBits : Prop :=
  (∀ w : NetWord, w.bits.extractLsb' 0 8 = w.data ∧ w.bits.getLsbD 8 = w.last ∧
    w.bits.extractLsb' 9 2 = w.kind.bits ∧ NetWord.ofBits w.bits = w) ∧
  (∀ b : BitVec 11, (NetWord.ofBits b).bits = b) ∧
  (∀ (b : Byte) (c : Cause),
    (ResWord.byte b).bits.extractLsb' 8 2 = 0b00 ∧ (ResWord.byte b).bits.extractLsb' 0 8 = b ∧
    ResWord.done.bits = 0x100 ∧
    (ResWord.fail c).bits.extractLsb' 8 2 = 0b10 ∧ (ResWord.fail c).bits.extractLsb' 4 4 = 0x0 ∧
    (ResWord.fail c).bits.extractLsb' 0 4 = c.bits) ∧
  (∀ e : Event, e.bits.extractLsb' 4 4 = e.code.bits ∧ e.bits.extractLsb' 0 4 = e.arg) ∧
  (Kind.byte.bits = 0b00 ∧ Kind.eof.bits = 0b01 ∧ Kind.ioerr.bits = 0b10 ∧ Kind.close.bits = 0b11) ∧
  (EvCode.hsAccept.bits = 0x1 ∧ EvCode.hsReject.bits = 0x2 ∧ EvCode.closed.bits = 0x3 ∧
    EvCode.carryDropped.bits = 0x4 ∧ EvCode.invalidPair.bits = 0x5) ∧
  Cause.none.bits = 0x0 ∧ Cause.term.bits = 0x1 ∧ Cause.hsMismatch.bits = 0x2 ∧
    Cause.hsShort.bits = 0x3 ∧ Cause.eof.bits = 0x4 ∧ Cause.ioerr.bits = 0x5 ∧
    Cause.invalid.bits = 0x6 ∧ Cause.keylen.bits = 0x7 ∧ Cause.illegalEvt.bits = 0x8 ∧
    Cause.cfgIllegal.bits = 0x9

/-- R116, R98: a command word is `OP`, M and N in its `2*LEN_W + 2` bits. The host of R98 issues a START, in
IDLE; any other command is a test host's alone and has no effect without one (DEDUCED, assumption 22). -/
def Obligations.CommandWordBits : Prop :=
  ∀ (s : State) (op : BitVec 2) (n m : Nat),
    n < 2 ^ s.params.lenW → m < 2 ^ s.params.lenW →
    let command : Move :=
      .command (op.toNat * 2 ^ (2 * s.params.lenW) + m * 2 ^ s.params.lenW + n)
    (s.bench = true ∨ (op = 0b01 ∧ s.cf.cst = .idle) →
      doMove command s =
        .next { s with cf := { s.cf with cmd := s.cf.cmd ++ [{ op := op, n := n, m := m }] } }) ∧
    (s.bench = false → ¬(op = 0b01 ∧ s.cf.cst = .idle) → doMove command s = .next s)

/-- R38, R45, R47, R327: no move but a unit's reset step changes its configuration registers. For SE the state
meets SE's invariant, which rules out a running SE that holds the policy code `11`. -/
def Obligations.ConfigurationLatched : Prop :=
  ∀ (s t : State) (m : Move), doMove m s = .next t →
    (s.se.Inv s.params → m ≠ .resetSe →
      t.se.sent = s.se.sent ∧ t.se.dir = s.se.dir ∧ t.se.pol = s.se.pol ∧ t.se.cfgOk = s.se.cfgOk) ∧
    (m ≠ .resetCf → t.cf.sent = s.cf.sent ∧ t.cf.cfgOk = s.cf.cfgOk)

/-! ### The units' state machines -/

/-- R227: SE's transitions. A step of SE in AWAIT_HS stays there only when it changes nothing, CLOSED is
left by no step of SE, and no step of SE enters `11`. The spec marks R227's list as derived from the
operations' rules. That a pair under the policy code `11`, which R227's list does not have, leaves ACTIVE too is
the model's reading (DEDUCED, assumption 4). -/
def Obligations.ServerTransitions : Prop :=
  ∀ (s t : State) (w : NetWord) (rest : List NetWord), s.se.rx = w :: rest →
    doMove .se s = .next t → t ≠ s →
    (s.se.st = .awaitHs → w.kind = .byte → w.data = s.se.sent → t.se.st = .active) ∧
    (s.se.st = .awaitHs → ¬(w.kind = .byte ∧ w.data = s.se.sent) → t.se.st = .closed) ∧
    (s.se.st = .active → (t.se.st = .active ↔ w.kind = .byte ∧
      (if s.se.cv then keyPair s.se w ≠ .abort ∧ keyPair s.se w ≠ .illegal
       else w.data ≠ s.se.sent))) ∧
    (s.se.st = .active → t.se.st = .active ∨ t.se.st = .closed) ∧
    (s.se.st = .closed → t.se.st = .closed)

/-- R286, R231, R258.7: there is no return from a close. Once SE is CLOSED, no move but its reset step
changes its state or cause or lets it write a word; once CF is DONE or FAIL, no move but its reset step
changes its state, cause or counters, or lets it write a word or take a command. -/
def Obligations.NoReturnFromClose : Prop :=
  ∀ (s t : State) (m : Move), doMove m s = .next t →
    (s.se.st = .closed → m ≠ .resetSe →
      t.se.st = .closed ∧ t.se.cause = s.se.cause ∧ t.se.ts = s.se.ts ∧
      t.se.tx <:+ s.se.tx ∧ t.se.ev <:+ s.se.ev) ∧
    (s.cf.terminal = true → m ≠ .resetCf →
      t.cf.cst = s.cf.cst ∧ t.cf.cause = s.cf.cause ∧ t.cf.txp = s.cf.txp ∧ t.cf.cc = s.cf.cc ∧
      t.cf.ntx <:+ s.cf.ntx ∧ t.cf.res <:+ s.cf.res ∧ t.cf.ev <:+ s.cf.ev ∧
      s.cf.cmd <+: t.cf.cmd)

/-- R255: CF's transitions, for a step of CF on a net word or a command and for its internal step. The spec
marks the list as derived from the operations' rules. -/
def Obligations.ClientTransitions : Prop :=
  ∀ s t : State, t ≠ s →
    (∀ w rest, s.cf.nrx = w :: rest → doMove .cfNet s = .next t →
      (s.cf.cst = .idle ∨ s.cf.terminal = true → t.cf.cst = s.cf.cst) ∧
      (s.cf.cst = .hsWait →
        t.cf.cst = if w.kind = .byte ∧ w.data = s.cf.sent then .stream else .fail) ∧
      (s.cf.cst = .stream →
        t.cf.cst = if w.kind = .byte then (if w.data = s.cf.sent then .done else .stream)
          else .fail)) ∧
    (doMove .cfInternal s = .next t → s.cf.cst = .stream ∧ t.cf.cst = .stream) ∧
    (∀ w rest, s.cf.cmd = w :: rest → doMove .cfCommand s = .next t →
      s.cf.cst = .idle ∧ t.cf.cst = if w.op = 0b01 ∧ w.n ≤ w.m then .hsWait else .fail)

/-- R228.5, R228.6, R114, R115: what one step of SE adds to `SE.tx`. It is at most two words, each a BYTE
SE may write or a CLOSE; a CLOSE comes last and SE is CLOSED with it, and was not before. The spec marks
R228 as derived from the operations' rules. -/
def Obligations.ServerWrites : Prop :=
  ∀ s t : State, doMove .se s = .next t →
    ∃ ws : List NetWord, t.se.tx = s.se.tx ++ ws ∧ ws.length ≤ 2 ∧
      (∀ w ∈ ws, (w.kind = .byte ∧ seMayWrite s.se w = true) ∨ w = closeWord) ∧
      (∀ w ∈ ws.dropLast, w.kind = .byte) ∧
      (closeWord ∈ ws ↔ s.se.st ≠ .closed ∧ t.se.st = .closed)

/-- R100: SE's operations leave CF as it is, CF's leave SE as it is, and no operation of the table
changes the source buffers, the transport, the ports, the parameters, the kind of host or the script. -/
def Obligations.OperationsKeepToTheirUnit : Prop :=
  ∀ (i : Instr) (s t : State), exec i s = .next t →
    t.data = s.data ∧ t.key = s.key ∧ t.link = s.link ∧ t.sePorts = s.sePorts ∧
    t.cfPorts = s.cfPorts ∧ t.params = s.params ∧ t.bench = s.bench ∧ t.script = s.script ∧
    (∀ v, encode i = .seDv v → t.cf = s.cf ∧ t.comb = s.comb) ∧
    (∀ v, encode i = .cfDv v → t.se = s.se ∧ t.comb = s.comb) ∧
    (∀ b, encode i = .byte b → t.se = s.se ∧ t.cf = s.cf) ∧
    (∀ d, encode i = .cfgDir d → t.se = s.se ∧ t.cf = s.cf) ∧
    (∀ p, encode i = .cfgPol p → t.cf = s.cf)

/-! ### Laws of the codec over whole streams -/

/-- R188: fragmentation invariance. What SE emits and becomes while it takes the words waiting for it does
not depend on their LAST bits, in any state and under any policy. The spec marks R188 as derived from
R185. -/
def Obligations.FragmentationInvariance : Prop :=
  ∀ (k : Nat) (s : State) (rx : List NetWord), rx.map eraseLast = s.se.rx.map eraseLast →
    eraseLasts (runMove k .se { s with se := { s.se with rx := rx } }) =
      eraseLasts (runMove k .se s)

/-- The output of a whole valid session, which R192 marks as derived from the operations' rules. -/
def Obligations.WholeSessionOutput : Prop :=
  ∀ (s : State) (ds ks : List Byte),
    s.se.st = .active → s.se.cv = false → ds.length ≤ ks.length →
    (∀ b ∈ ds, IsSymbol b) → (∀ b ∈ ks, IsSymbol b) → sym2val s.se.sent = none →
    (∀ w ∈ s.se.rx, w.kind = .byte) →
    s.se.rx.map (fun w => w.data) = interleave ds ks ++ [s.se.sent] →
    s.se.tx.length + ds.length + 2 ≤ s.params.obuf →
    ∃ t, runMove (2 * ds.length + 1) .se s = .next t ∧
      t.se.tx = s.se.tx ++
        (List.zipWith (cipherByte s.se.dir) ds ks).map
          (fun b => { kind := .byte, last := false, data := b }) ++
        [{ kind := .byte, last := false, data := s.se.sent }, closeWord] ∧
      t.se.rx = [] ∧ t.se.st = .closed ∧ t.se.ts = true ∧ t.se.cause = .term

/-- What an ENC session makes of data and key, a DEC session makes back into the data, which R193 marks as
derived from R192, R164 and R167. -/
def Obligations.SessionRoundTrip : Prop :=
  ∀ (e d : State) (ps ks cs : List Byte) (t : State),
    (∀ b ∈ ps, IsSymbol b) → (∀ b ∈ ks, IsSymbol b) → ps.length ≤ ks.length →
    e.se.st = .active → e.se.cv = false → e.se.dir = .enc → sym2val e.se.sent = none →
    (∀ w ∈ e.se.rx, w.kind = .byte) →
    e.se.rx.map (fun w => w.data) = interleave ps ks ++ [e.se.sent] →
    e.se.tx.length + ps.length + 2 ≤ e.params.obuf →
    runMove (2 * ps.length + 1) .se e = .next t →
    t.se.tx = e.se.tx ++ cs.map (byteWord false) ++ [byteWord false e.se.sent, closeWord] →
    d.se.st = .active → d.se.cv = false → d.se.dir = .dec → sym2val d.se.sent = none →
    (∀ w ∈ d.se.rx, w.kind = .byte) →
    d.se.rx.map (fun w => w.data) = interleave cs ks ++ [d.se.sent] →
    d.se.tx.length + ps.length + 2 ≤ d.params.obuf →
    ∃ r, runMove (2 * ps.length + 1) .se d = .next r ∧
      r.se.tx = d.se.tx ++ ps.map (byteWord false) ++ [byteWord false d.se.sent, closeWord]

/-- R244, R245: one chunk. CF, at the start of a chunk, sends in as many internal steps as the chunk has
bytes exactly the stream bytes of that chunk, LAST on its last byte only, and then reads. The spec marks
R244 as derived from R245 and R246. -/
def Obligations.ChunkSent : Prop :=
  ∀ (s : State) (len : Nat),
    s.cf.cst = .stream → s.cf.ph = false → s.cf.allSent = false → s.cf.cc = 0 →
    s.cf.n < 2 ^ s.params.lenW → s.params.Legal → s.cf.txp < 2 * s.cf.n →
    len = min s.params.chunkMax (2 * s.cf.n - s.cf.txp) →
    s.cf.ntx.length + len ≤ s.params.obuf → s.cf.res.length ≤ s.params.obuf →
    ∃ t, runMove len .cfInternal s = .next t ∧
      t.cf.ntx = s.cf.ntx ++ (List.range len).map (fun i =>
        { kind := .byte, last := decide (i + 1 = len)
          data := if (s.cf.txp + i) % 2 = 0 then s.data.read ((s.cf.txp + i) / 2)
            else s.key.read ((s.cf.txp + i) / 2) }) ∧
      t.cf.txp = s.cf.txp + len ∧ t.cf.cc = 0 ∧ t.cf.ph = true ∧ t.cf.cst = .stream

/-- R112, R135, R243: the words of a `SPLIT` carry the bytes of its string, in order, whatever the lengths; where
the lengths stay within the string, LAST is on the last byte of each length and on no other; a `CHUNK` has LAST
on its final word only; and the string of a `PAIRS`, as the interleaved stream, is data then key at each position,
twice as long as the data. -/
def Obligations.TraceMacros : Prop :=
  (∀ (ls : List Nat) (bs : List Byte),
    (splitWords ls bs).map (fun w => w.data) = bs.take ls.sum ∧
    (∀ w ∈ splitWords ls bs, w.kind = .byte) ∧
    (ls.sum ≤ bs.length → (splitWords ls bs).map (fun w => w.last) =
      ls.flatMap (fun l => (List.range l).map (fun i => decide (i + 1 = l))))) ∧
  (∀ bs : List Byte, (chunkWords bs).map (fun w => w.last) =
    (List.range bs.length).map (fun i => decide (i + 1 = bs.length))) ∧
  ∀ ds ks : List Byte, ds.length ≤ ks.length →
    (interleave ds ks).length = 2 * ds.length ∧
    (∀ i, i < ds.length →
      (interleave ds ks)[2 * i]? = ds[i]? ∧ (interleave ds ks)[2 * i + 1]? = ks[i]?) ∧
    ∀ ls : List Nat, pairWordsOf ds ks ls = splitWords ls (interleave ds ks)

/-! ### The host: source buffers and transport -/

/-- R81, R82, R84: a byte the host places is what that index then reads as, every other index and the
other buffer read as before; an index the buffer does not have faults, and a session in progress
refuses the host's change (I20). Both stops are the model's reading (DEDUCED, assumption 21). A session
begins when the host writes the START, so that none can be placed while the START waits in `CF.cmd` for a CF in
IDLE (R313; DEDUCED, assumption 25). -/
def Obligations.PlacedByteIsRead : Prop :=
  ∀ (s : State) (space : Space) (a : Nat) (b : Byte),
    (2 ^ s.params.lenW ≤ a → doMove (.place space a b) s = .fault (.noSuchIndex space a)) ∧
    (a < 2 ^ s.params.lenW →
      s.cf.cst = .hsWait ∨ s.cf.cst = .stream ∨ (s.cf.cst = .idle ∧ ∃ w ∈ s.cf.cmd, w.op = 0b01) →
      doMove (.place space a b) s = .refused .bufferChangedInSession) ∧
    (a < 2 ^ s.params.lenW → s.cf.cst ≠ .hsWait → s.cf.cst ≠ .stream →
      (s.cf.cst = .idle → ∀ w ∈ s.cf.cmd, w.op ≠ 0b01) →
      ∃ t, doMove (.place space a b) s = .next t ∧ (t.space space).read a = b ∧
        ∀ (sp : Space) (x : Nat), sp ≠ space ∨ x ≠ a → (t.space sp).read x = (s.space sp).read x)

/-- R92, R93, R97: the transport loses, adds and reorders nothing, and it moves. What it takes from a writer and
what it delivers leave the bytes of the direction, from reader to writer, as they were; so do its EOF and IOERR.
While it does not hold `NET_BUF` bytes it takes the writer's oldest word, a BYTE or a CLOSE. Where the reader's
channel has room, it delivers its oldest byte with LAST, or without LAST where the read stays shorter than
`RX_CAP`; where the channel has none it delivers no byte. That room is counted in bytes (DESIGN CHOICE, assumption
24). -/
def Obligations.TransportKeepsTheStream : Prop :=
  ∀ (s : State) (lane : Lane),
    (∀ (t : State) (m : Move),
      m = .carry lane ∨ m = .deliver lane true ∨ m = .deliver lane false ∨ m = .deliverEof lane ∨
        m = .deliverErr lane →
      doMove m s = .next t →
      t.laneBytes .c2s = s.laneBytes .c2s ∧ t.laneBytes .s2c = s.laneBytes .s2c) ∧
    (∀ (w : NetWord) (rest : List NetWord),
      s.written lane = w :: rest → s.full lane = false → (s.lane lane).closed = false →
      (w.kind = .byte → doMove (.carry lane) s = .next ((s.setWritten lane rest).setLane lane
        { s.lane lane with buf := (s.lane lane).buf ++ [w.data] })) ∧
      (w.kind = .close → doMove (.carry lane) s = .next ((s.setWritten lane rest).setLane lane
        { s.lane lane with closed := true }))) ∧
    (∀ (b : Byte) (rest : List Byte) (last : Bool),
      (s.lane lane).buf = b :: rest → (s.lane lane).ended = false →
      (∀ k, s.readerRoom lane = some k → (byteData (s.readerChannel lane)).length < k) →
      (last = true ∨ (s.lane lane).chunkLen + 1 < s.params.rxCap →
        doMove (.deliver lane last) s =
          .next ((s.pushRead lane { kind := .byte, last := last, data := b }).setLane lane
            { s.lane lane with
              buf := rest, chunkLen := if last then 0 else (s.lane lane).chunkLen + 1 })) ∧
      (s.params.rxCap ≤ (s.lane lane).chunkLen + 1 → doMove (.deliver lane false) s = .next s)) ∧
    ∀ (k : Nat) (last : Bool),
      s.readerRoom lane = some k → k ≤ (byteData (s.readerChannel lane)).length →
      doMove (.deliver lane last) s = .next s

/-- R94, R95, R96, R97, R98, R313, R329: while the transport holds `NET_BUF` bytes of a direction, it takes no
word from its writer. EOF comes once, after a CLOSE and every byte before it, and to CF when it has left IDLE
(R132; DEDUCED, assumption 30); after an EOF or an IOERR the transport delivers nothing more to that side. Towards a closed side it drops a word at a time, the bytes it holds
first and then the writer's words, a CLOSE among them (DESIGN CHOICE, assumption 19), but none that a writer has
written since it was reset, which wait for a new connection (DEDUCED, assumption 16); elsewhere it drops none. A
reset ends the connection of its side: the peer's EOF is then due, and nothing more reaches the side (DEDUCED,
assumption 23). A new transport is connected to two units that have been reset since the last one and have no net
word waiting (DEDUCED, assumption 16), and otherwise none is; the units keep what they have written. The host
takes the oldest word of `CF.res`, `SE.ev` or `CF.ev`, and nothing else changes. Where the host keeps its duties
and the reader's channel has room again and again (R88; DESIGN CHOICE, assumption 24), a closed direction ends, one
towards CF if CF leaves IDLE at some time. -/
def Obligations.TransportLimits : Prop :=
  ∀ (s : State) (lane : Lane),
    (∀ k, s.netBuf lane = some k → k ≤ (s.lane lane).buf.length →
      doMove (.carry lane) s = .next s) ∧
    ((s.lane lane).ended = true → ∀ m,
      m = .deliver lane true ∨ m = .deliver lane false ∨ m = .deliverEof lane ∨
        m = .deliverErr lane → doMove m s = .next s) ∧
    ((s.lane lane).ended = false →
      doMove (.deliverErr lane) s =
        .next ((s.pushRead lane ioerrWord).setLane lane { s.lane lane with ended := true })) ∧
    ((s.lane lane).ended = false → (s.lane lane).closed = true → (s.lane lane).buf = [] →
      (lane = .s2c → s.cf.cst ≠ .idle) →
      doMove (.deliverEof lane) s =
        .next ((s.pushRead lane eofWord).setLane lane { s.lane lane with ended := true })) ∧
    ((s.lane lane).closed = false ∨ (s.lane lane).buf ≠ [] ∨ (lane = .s2c ∧ s.cf.cst = .idle) →
      doMove (.deliverEof lane) s = .next s) ∧
    (s.readerClosed lane = true →
      (∀ b rest, (s.lane lane).buf = b :: rest →
        doMove (.drop lane) s = .next (s.setLane lane { s.lane lane with buf := rest })) ∧
      ((s.lane lane).buf = [] → (s.lane lane).writerReset = false →
        doMove (.drop lane) s = .next (s.setWritten lane (s.written lane).tail)) ∧
      ((s.lane lane).buf = [] → (s.lane lane).writerReset = true →
        doMove (.drop lane) s = .next s)) ∧
    (s.readerClosed lane = false → doMove (.drop lane) s = .next s) ∧
    (∀ (m : Move) (t : State), m = (match lane with | .c2s => .resetCf | .s2c => .resetSe) →
      doMove m s = .next t →
      t.lane lane = { s.lane lane with closed := true, writerReset := true } ∧
      t.lane lane.other = { s.lane lane.other with buf := [], ended := true, chunkLen := 0 } ∧
      t.readerClosed lane.other = true) ∧
    (s.link.c2s.writerReset = true → s.link.s2c.writerReset = true → s.se.rx = [] → s.cf.nrx = [] →
      doMove .connect s =
        .next { s with link := { c2s := LaneState.empty, s2c := LaneState.empty } }) ∧
    ((s.lane lane).writerReset = false ∨ s.readerChannel lane ≠ [] →
      doMove .connect s = .next s) ∧
    (∀ w rest, s.cf.res = w :: rest →
      doMove .takeRes s = .next { s with cf := { s.cf with res := rest } }) ∧
    (∀ e rest, s.se.ev = e :: rest →
      doMove .takeSeEv s = .next { s with se := { s.se with ev := rest } }) ∧
    (∀ e rest, s.cf.ev = e :: rest →
      doMove .takeCfEv s = .next { s with cf := { s.cf with ev := rest } }) ∧
    ∀ (σ : Nat → State) (μ : Nat → Move), HostDuties σ μ → σ 0 = s →
      (∀ k, ∃ j, k ≤ j ∧ (σ j).readerFull lane = false) →
      (lane = .s2c → ∃ k, (σ k).cf.cst ≠ .idle) →
      (s.lane lane).closed = true → ∃ j, ((σ j).lane lane).ended = true ∨ μ j = .connect

/-- R321, R322, R330: two hangs. The alternation hang: CF in its one blocking read, SE waiting for input,
nothing in any network channel or in the transport and neither side closed. The deadlock through finite buffering:
in both directions the transport holds `NET_BUF` bytes and the reader's channel is full, SE holds on a full
`SE.tx` and CF on a full `CF.ntx` in a send attempt. In each no step of a unit and no move of the transport but an
IOERR changes anything. That the readers' channels, whose capacity R88 calls the transport's, have one in bytes is
the model's choice (DESIGN CHOICE, assumption 24). The spec marks R321 and R322 as derived from other rules. -/
def Obligations.AlternationHang : Prop :=
  ∀ s : State,
    s.cf.cst = .stream → s.se.st = .active →
    s.link.c2s.closed = false → s.link.s2c.closed = false →
    (s.cf.ph = true ∧ s.cf.nrx = [] ∧ s.cf.ntx = [] ∧ s.se.rx = [] ∧ s.se.tx = [] ∧
      s.link.c2s.buf = [] ∧ s.link.s2c.buf = []) ∨
    (s.cf.ph = false ∧ s.params.obuf ≤ s.cf.ntx.length ∧ seRxReady s = false ∧
      ∀ lane, ∃ k r, s.netBuf lane = some k ∧ k ≤ (s.lane lane).buf.length ∧
        s.readerRoom lane = some r ∧ r ≤ (byteData (s.readerChannel lane)).length) →
    ∀ m, m = .se ∨ m = .cfCommand ∨ m = .cfNet ∨ m = .cfInternal ∨
      (∃ lane, m = .carry lane ∨ m = .deliver lane true ∨ m = .deliver lane false ∨
        m = .deliverEof lane ∨ m = .drop lane) →
    doMove m s = .next s

/-- R320, which the spec marks as derived from the operations' rules: a session within its bounds ends, and CF ends
in DONE or, under ABORT, in FAIL, whatever partition the transport chooses and in whatever order the agents move.
That the units step in the end, that none is reset, how the session starts and that a read towards CF ends are
what the model takes R320 to assume beside its list (DEDUCED, assumptions 9 and 29). -/
def Obligations.SessionEnds : Prop :=
  ∀ (σ : Nat → State) (μ : Nat → Move) (n m : Nat), LiveSession σ μ n m →
    ∃ j, (σ j).cf.cst = .done ∨ ((σ j).se.pol = .abort ∧ (σ j).cf.cst = .fail)

/-! ### The whole machine -/

/-- A step runs the decoded instruction: when the next move presents a word to the decoder and the word
decodes to `i`, the step executes `i`, with the move gone from the script and the operands the move
presents placed on the nets of their unit; nothing else is added. That the next move stands in the state
is the model's choice (DESIGN CHOICE, assumption 6). -/
def Obligations.StepRunsDecodedInstruction : Prop :=
  ∀ (s : State) (m : Move) (rest : List Move) (v : InstrWord) (i : Instr),
    s.script = m :: rest → presented m s = some v → decode v = .ok i →
    Machine.step s = exec i (present m { s with script := rest })

/-- A few words of each format, written out from the spec's tables, and the instructions they stand
for; one, a command in STREAM, is in no row and is rejected. -/
def Obligations.WordsDecode : Prop :=
  decode (.seDv 0b000001) = .ok (.seHsOk false) ∧ decode (.seDv 0b010000) = .ok .seData ∧
  decode (.seDv 0b011001) = .ok (.seKey true) ∧ decode (.seDv 0b101110) = .ok (.seDiscard true 0b11 false) ∧
  decode (.cfDv 0b0100000011) = .ok (.cfStartOk false false) ∧
  decode (.cfDv 0b0001000001) = .ok .cfSendByte ∧
  decode (.cfDv 0b1001010000) = .ok (.cfRecvByte false) ∧
  decode (.cfDv 0b0101000011) = .error .commandOutsideIdle ∧
  decode (.byte 0x48) = .ok .symH ∧ decode (.byte 0x24) = .ok .sentEncService ∧
  decode (.byte 0x61) = .ok (.byteInvalid 0x61) ∧
  decode (.cfgDir 0b1) = .ok .xformDec ∧ decode (.cfgPol 0b10) = .ok .polAbort

/-- Decode and encode agree, for every instruction and every word: a well-formed instruction's word
decodes to it, and a word that decodes is the word of the instruction it decodes to, which is well
formed. -/
def Obligations.DecodeEncodeAgree : Prop :=
  (∀ i : Instr, i.wellFormed = true → decode (encode i) = .ok i) ∧
  (∀ (v : InstrWord) (i : Instr), decode v = .ok i → i.wellFormed = true ∧ encode i = v)

/-- The invariant holds at reset, with the port values and parameters the model chose (DESIGN CHOICE,
assumption 7). That it bounds the bytes in a reader's channel by a capacity of the transport's is the model's
choice as well (DESIGN CHOICE, assumption 24). -/
def Obligations.ResetMeetsInvariant : Prop := State.reset.Inv

/-- Every step keeps the invariant, whatever the script holds: R228 and R258, which the spec marks as
derived, with R33, R42 to R44, R88, R93 and R97. That the transport's capacity of a reader's channel, R88's, counts
bytes is the model's choice (DESIGN CHOICE, assumption 24). -/
def Obligations.StepKeepsInvariant : Prop :=
  ∀ s t : State, s.Inv → Machine.step s = .next t → t.Inv

/-- R228, R258: so every state reachable from reset meets it, with any legal parameters, either host and any
script. Its bound of the bytes in a reader's channel by a capacity of the transport's is the model's choice
(DESIGN CHOICE, assumption 24). -/
def Obligations.ReachableMeetsInvariant : Prop :=
  ∀ s : State, Reachable s → s.Inv

/-- R131, R255: a step from a state that meets the invariant never refuses an instruction; it stops only
where the host places a byte at an index no buffer has, or changes a buffer during a session, which begins with
the writing of the START (DEDUCED, assumptions 21 and 25). -/
def Obligations.StopsOnlyOnHostFault : Prop :=
  ∀ s : State, s.Inv →
    (∃ t, Machine.step s = .next t) ∨
    ∃ space a b rest, s.script = .place space a b :: rest ∧
      (2 ^ s.params.lenW ≤ a ∨ s.cf.cst = .hsWait ∨ s.cf.cst = .stream ∨
        (s.cf.cst = .idle ∧ ∃ w ∈ s.cf.cmd, w.op = 0b01))
end

