-- ==== Sys2Proof/Laws/Decode.lean ====
section
/-! SUPPORT. The fields of a packed vector, and the row each unit's vector decodes to, by the unit's
state and the word it has. -/

namespace Sys2Proof

/-- Packing SE's vector loses nothing (R130). -/
theorem seDvBits_fields : ∀ (st : BitVec 2) (cv : Bool) (kind : BitVec 2) (sm : Bool),
    (seDvBits st cv kind sm).extractLsb' 4 2 = st ∧ (seDvBits st cv kind sm).getLsbD 3 = cv ∧
    (seDvBits st cv kind sm).extractLsb' 1 2 = kind ∧ (seDvBits st cv kind sm).getLsbD 0 = sm := by
  decide

/-- Packing CF's vector loses nothing (R132). -/
theorem cfDvBits_fields : ∀ (src : BitVec 2) (cst : BitVec 3) (ph a : Bool) (x : BitVec 3),
    (cfDvBits src cst ph a x).extractLsb' 8 2 = src ∧
    (cfDvBits src cst ph a x).extractLsb' 5 3 = cst ∧
    (cfDvBits src cst ph a x).getLsbD 4 = ph ∧ (cfDvBits src cst ph a x).getLsbD 3 = a ∧
    (cfDvBits src cst ph a x).extractLsb' 0 3 = x := by
  decide

namespace Machine

/-- R130 by the names of the states and kinds. -/
def seOperation (st : SeSt) (cv : Bool) (kind : Kind) (sm : Bool) : Instr :=
  match st, kind with
  | .awaitHs, .byte => if sm then .seHsOk cv else .seHsBad cv
  | .awaitHs, .eof => .seHsEof cv sm
  | .awaitHs, .ioerr => .seHsErr cv sm
  | .awaitHs, .close => .seIllegal false cv sm
  | .active, .byte => if cv then .seKey sm else if sm then .seTerm else .seData
  | .active, .eof => .seEof cv sm
  | .active, .ioerr => .seIoerr cv sm
  | .active, .close => .seIllegal true cv sm
  | .closed, k => .seDiscard cv k.bits sm
  | .reserved, k => .seReservedState cv k.bits sm

theorem decodeSe_operation (st : SeSt) (cv : Bool) (kind : Kind) (sm : Bool) :
    decodeSe (seDvBits st.bits cv kind.bits sm) = seOperation st cv kind sm := by
  cases st <;> cases cv <;> cases kind <;> cases sm <;> decide

/-- The operation SE's vector picks for a word. -/
theorem decodeSe_vector (u : SE) (w : NetWord) :
    decodeSe (u.vector w) = seOperation u.st u.cv w.kind (w.data == u.sent) :=
  decodeSe_operation _ _ _ _

/-- R132 for a net word, by the names of the states and kinds. -/
def cfNetOperation (cst : CfSt) (ph a : Bool) (kind : Kind) (sm : Bool) : Except Reject Instr :=
  match cst, kind with
  | .idle, k => .ok (.cfDiscard1 ph a (cfX k.bits sm))
  | .done, k => .ok (.cfDiscard2 ph a (cfX k.bits sm))
  | .fail, k => .ok (.cfDiscard3 ph a (cfX k.bits sm))
  | .hsWait, .byte => .ok (if sm then .cfHsOk ph a else .cfHsBad ph a)
  | .hsWait, .eof => .ok (.cfHsEof ph a sm)
  | .hsWait, .ioerr => .ok (.cfHsErr ph a sm)
  | .hsWait, .close => .ok (.cfNetIllegal1 ph a sm)
  | .stream, k =>
    if ph then
      match k with
      | .byte => .ok (if sm then .cfRecvTerm a else .cfRecvByte a)
      | .eof => .ok (.cfRecvEof a sm)
      | .ioerr => .ok (.cfRecvErr a sm)
      | .close => .ok (.cfNetIllegal2 a sm)
    else .error .netWordInSendPhase
  | .reserved5, _ | .reserved6, _ | .reserved7, _ => .error .cstReserved

theorem decodeCf_netOperation (cst : CfSt) (ph a : Bool) (kind : Kind) (sm : Bool) :
    decodeCf (cfDvBits 0b10 cst.bits ph a (cfX kind.bits sm)) = cfNetOperation cst ph a kind sm := by
  cases cst <;> cases ph <;> cases a <;> cases kind <;> cases sm <;> rfl

theorem decodeCf_netVector (c : CF) (w : NetWord) :
    decodeCf (c.netVector w) = cfNetOperation c.cst c.ph c.allSent w.kind (w.data == c.sent) :=
  decodeCf_netOperation _ _ _ _ _

/-- R132 for a command word, by the names of the states. -/
def cfCommandOperation (cst : CfSt) (ph a : Bool) (op : BitVec 2) (keyOk : Bool) :
    Except Reject Instr :=
  match cst with
  | .idle =>
    if op = opStart then .ok (if keyOk then .cfStartOk ph a else .cfStartKeylen ph a)
    else if op = 0b00#2 then .ok (.cfCmdIllegal1 ph a keyOk)
    else if op = 0b10#2 then .ok (.cfCmdIllegal2 ph a keyOk)
    else .ok (.cfCmdIllegal3 ph a keyOk)
  | .hsWait | .stream | .done | .fail => .error .commandOutsideIdle
  | .reserved5 | .reserved6 | .reserved7 => .error .cstReserved

theorem decodeCf_commandOperation (cst : CfSt) (ph a : Bool) (op : BitVec 2) (keyOk : Bool) :
    decodeCf (cfDvBits 0b01 cst.bits ph a (cfX op keyOk)) =
      cfCommandOperation cst ph a op keyOk := by
  have h : ∀ (ph a : Bool) (op : BitVec 2) (keyOk : Bool) (cst : CfSt),
      cst ∈ [CfSt.idle, .hsWait, .stream, .done, .fail, .reserved5, .reserved6, .reserved7] →
      decodeCf (cfDvBits 0b01 cst.bits ph a (cfX op keyOk)) =
        cfCommandOperation cst ph a op keyOk := by
    intro ph a op keyOk cst hc
    revert ph a op keyOk
    cases cst <;> decide
  exact h ph a op keyOk cst (by cases cst <;> decide)

theorem decodeCf_commandVector (c : CF) (w : CmdWord) :
    decodeCf (c.commandVector w) =
      cfCommandOperation c.cst c.ph c.allSent w.op (decide (w.n ≤ w.m)) :=
  decodeCf_commandOperation _ _ _ _ _

/-- R132 for the internal source, by the names of the states. -/
def cfInternalOperation (cst : CfSt) (ph a more : Bool) : Except Reject Instr :=
  match cst with
  | .stream =>
    if ph then .error .internalOutsideSendPhase
    else if a then .error .allSentInSendPhase
    else .ok (if more then .cfSendByte else .cfSendSent)
  | .idle | .hsWait | .done | .fail => .error .internalOutsideSendPhase
  | .reserved5 | .reserved6 | .reserved7 => .error .cstReserved

theorem decodeCf_internalOperation (cst : CfSt) (ph a more : Bool) :
    decodeCf (cfDvBits 0b00 cst.bits ph a (cfX 0b00 more)) = cfInternalOperation cst ph a more := by
  cases cst <;> cases ph <;> cases a <;> cases more <;> rfl

theorem decodeCf_internalVector (c : CF) :
    decodeCf c.internalVector =
      cfInternalOperation c.cst c.ph c.allSent (decide (c.txp < 2 * c.n)) :=
  decodeCf_internalOperation _ _ _ _

@[simp] theorem Dir.ofBits_bits (d : Dir) : Dir.ofBits d.bits = d := by cases d <;> rfl
@[simp] theorem Policy.ofBits_bits (p : Policy) : Policy.ofBits p.bits = p := by cases p <;> rfl
@[simp] theorem Kind.ofBits_bits (k : Kind) : Kind.ofBits k.bits = k := by cases k <;> rfl
@[simp] theorem SeSt.ofBits_bits (x : SeSt) : SeSt.ofBits x.bits = x := by cases x <;> rfl
@[simp] theorem CfSt.ofBits_bits (x : CfSt) : CfSt.ofBits x.bits = x := by cases x <;> rfl

end Machine

end Sys2Proof
end

