-- ==== Sys2Proof/Laws/Memory.lean ====
section
/-! SUPPORT. The laws of a source buffer: a read after a placing, and the canonical form. -/

namespace Sys2Proof.Machine

@[simp] theorem Memory.read_nil (a : Nat) : Memory.read [] a = unfilledByte := rfl

@[simp] theorem Memory.wf_nil : Memory.wf [] = true := rfl

theorem Memory.wf_cons (a : Nat) (b : Byte) (m : Memory) :
    Memory.wf ((a, b) :: m) = true ↔
      b ≠ unfilledByte ∧ (∀ c ∈ m, a < c.1) ∧ Memory.wf m = true := by
  simp [Memory.wf, and_assoc]

/-- An index that no cell has reads as unfilled. -/
theorem Memory.read_unlisted (m : Memory) (a : Nat) (h : ∀ c ∈ m, c.1 ≠ a) :
    m.read a = unfilledByte := by
  induction m with
  | nil => rfl
  | cons c rest ih =>
    have hc := h c (by simp)
    simp only [Memory.read, hc, if_false]
    exact ih (fun d hd => h d (by simp [hd]))

theorem Memory.mem_without (m : Memory) (a : Nat) (c : Host.Cell) :
    c ∈ m.without a ↔ c ∈ m ∧ c.1 ≠ a := by
  simp [Memory.without]

theorem Memory.mem_put (m : Memory) (a : Nat) (b : Byte) (c : Host.Cell) :
    c ∈ m.put a b ↔ c = (a, b) ∨ c ∈ m := by
  induction m with
  | nil => simp [Memory.put]
  | cons d rest ih =>
    obtain ⟨x, y⟩ := d
    simp only [Memory.put]
    split <;> simp_all [or_left_comm]

theorem Memory.read_without_same (m : Memory) (a : Nat) : (m.without a).read a = unfilledByte :=
  Memory.read_unlisted _ _ (fun c hc => ((Memory.mem_without m a c).mp hc).2)

theorem Memory.read_without_other (m : Memory) (a x : Nat) (h : x ≠ a) :
    (m.without a).read x = m.read x := by
  induction m with
  | nil => rfl
  | cons d rest ih =>
    obtain ⟨y, b⟩ := d
    by_cases hy : y = a
    · subst hy; simpa [Memory.without, Memory.read, Ne.symm h] using ih
    · simp only [Memory.without] at ih
      simp [Memory.without, Memory.read, hy, ih]

theorem Memory.read_put_same (m : Memory) (a : Nat) (b : Byte) (h : ∀ c ∈ m, c.1 ≠ a) :
    (m.put a b).read a = b := by
  induction m with
  | nil => simp [Memory.put, Memory.read]
  | cons d rest ih =>
    obtain ⟨y, z⟩ := d
    have hy : y ≠ a := h (y, z) (by simp)
    have ih := ih (fun c hc => h c (by simp [hc]))
    simp only [Memory.put]
    split <;> simp [Memory.read, hy, ih]

theorem Memory.read_put_other (m : Memory) (a x : Nat) (b : Byte) (h : x ≠ a) :
    (m.put a b).read x = m.read x := by
  induction m with
  | nil => simp [Memory.put, Memory.read, Ne.symm h]
  | cons d rest ih =>
    obtain ⟨y, z⟩ := d
    simp only [Memory.put]
    split <;> simp [Memory.read, Ne.symm h, ih]

/-- A byte placed at an index is read there. -/
theorem Memory.read_write_same (m : Memory) (a : Nat) (b : Byte) : (m.write a b).read a = b := by
  unfold Memory.write
  split
  · next h => rw [Memory.read_without_same, h]
  · exact Memory.read_put_same _ _ _ (fun c hc => ((Memory.mem_without m a c).mp hc).2)

/-- A byte placed at one index leaves every other index alone. -/
theorem Memory.read_write_other (m : Memory) (a x : Nat) (b : Byte) (h : x ≠ a) :
    (m.write a b).read x = m.read x := by
  unfold Memory.write
  split
  · exact Memory.read_without_other m a x h
  · rw [Memory.read_put_other _ _ _ _ h, Memory.read_without_other m a x h]

theorem Memory.wf_without (m : Memory) (a : Nat) (h : m.wf = true) : (m.without a).wf = true := by
  induction m with
  | nil => rfl
  | cons d rest ih =>
    obtain ⟨y, z⟩ := d
    obtain ⟨hz, hlt, hrest⟩ := (Memory.wf_cons y z rest).mp h
    have ih := ih hrest
    by_cases hy : y = a
    · subst hy; simpa [Memory.without] using ih
    · have : Memory.without ((y, z) :: rest) a = (y, z) :: Memory.without rest a := by
        simp [Memory.without, hy]
      rw [this]
      exact (Memory.wf_cons y z _).mpr
        ⟨hz, fun c hc => hlt c ((Memory.mem_without rest a c).mp hc).1, ih⟩

theorem Memory.wf_put (m : Memory) (a : Nat) (b : Byte) (h : m.wf = true) (hb : b ≠ unfilledByte)
    (hn : ∀ c ∈ m, c.1 ≠ a) : (m.put a b).wf = true := by
  induction m with
  | nil => exact (Memory.wf_cons a b []).mpr ⟨hb, by simp, rfl⟩
  | cons d rest ih =>
    obtain ⟨y, z⟩ := d
    obtain ⟨hz, hlt, hrest⟩ := (Memory.wf_cons y z rest).mp h
    have hy : y ≠ a := hn (y, z) (by simp)
    simp only [Memory.put]
    split
    · next hay =>
      refine (Memory.wf_cons a b _).mpr ⟨hb, ?_, h⟩
      intro c hc
      rcases List.mem_cons.mp hc with rfl | hc
      · exact hay
      · exact lt_trans hay (hlt c hc)
    · next hay =>
      refine (Memory.wf_cons y z _).mpr ⟨hz, ?_, ih hrest (fun c hc => hn c (by simp [hc]))⟩
      intro c hc
      rcases (Memory.mem_put rest a b c).mp hc with rfl | hc
      · exact lt_of_le_of_ne (not_lt.mp hay) hy
      · exact hlt c hc

/-- Placing a byte keeps the canonical form. -/
theorem Memory.wf_write (m : Memory) (a : Nat) (b : Byte) (h : m.wf = true) :
    (m.write a b).wf = true := by
  unfold Memory.write
  split
  · exact Memory.wf_without m a h
  · next hb =>
    exact Memory.wf_put _ a b (Memory.wf_without m a h) hb
      (fun c hc => ((Memory.mem_without m a c).mp hc).2)

end Sys2Proof.Machine
end

