-- ==== Sys2Proof/Laws/State.lean ====
section
/-! SUPPORT. What each update of the state leaves and writes: one lemma per field per update, so that no
later proof unfolds a record update. -/

namespace Sys2Proof.Machine

section Units
variable (u : SE) (c : CF) (w : NetWord) (r : ResWord) (k : EvCode) (a : BitVec 4)

/-! `SE.emit` -/

@[simp] theorem SE.emit_st : (u.emit w).st = u.st := rfl
@[simp] theorem SE.emit_cv : (u.emit w).cv = u.cv := rfl
@[simp] theorem SE.emit_cb : (u.emit w).cb = u.cb := rfl
@[simp] theorem SE.emit_ts : (u.emit w).ts = u.ts := rfl
@[simp] theorem SE.emit_cause : (u.emit w).cause = u.cause := rfl
@[simp] theorem SE.emit_sent : (u.emit w).sent = u.sent := rfl
@[simp] theorem SE.emit_dir : (u.emit w).dir = u.dir := rfl
@[simp] theorem SE.emit_pol : (u.emit w).pol = u.pol := rfl
@[simp] theorem SE.emit_cfgOk : (u.emit w).cfgOk = u.cfgOk := rfl
@[simp] theorem SE.emit_rx : (u.emit w).rx = u.rx := rfl
@[simp] theorem SE.emit_tx : (u.emit w).tx = u.tx ++ [w] := rfl
@[simp] theorem SE.emit_ev : (u.emit w).ev = u.ev := rfl

/-! `SE.event` -/

@[simp] theorem SE.event_st : (u.event k a).st = u.st := rfl
@[simp] theorem SE.event_cv : (u.event k a).cv = u.cv := rfl
@[simp] theorem SE.event_cb : (u.event k a).cb = u.cb := rfl
@[simp] theorem SE.event_ts : (u.event k a).ts = u.ts := rfl
@[simp] theorem SE.event_cause : (u.event k a).cause = u.cause := rfl
@[simp] theorem SE.event_sent : (u.event k a).sent = u.sent := rfl
@[simp] theorem SE.event_dir : (u.event k a).dir = u.dir := rfl
@[simp] theorem SE.event_pol : (u.event k a).pol = u.pol := rfl
@[simp] theorem SE.event_cfgOk : (u.event k a).cfgOk = u.cfgOk := rfl
@[simp] theorem SE.event_rx : (u.event k a).rx = u.rx := rfl
@[simp] theorem SE.event_tx : (u.event k a).tx = u.tx := rfl
@[simp] theorem SE.event_ev : (u.event k a).ev = u.ev ++ [{ code := k, arg := a }] := rfl

/-! `SE.clearCarry` -/

@[simp] theorem SE.clearCarry_st : (u.clearCarry).st = u.st := rfl
@[simp] theorem SE.clearCarry_cv : (u.clearCarry).cv = false := rfl
@[simp] theorem SE.clearCarry_cb : (u.clearCarry).cb = 0x00 := rfl
@[simp] theorem SE.clearCarry_ts : (u.clearCarry).ts = u.ts := rfl
@[simp] theorem SE.clearCarry_cause : (u.clearCarry).cause = u.cause := rfl
@[simp] theorem SE.clearCarry_sent : (u.clearCarry).sent = u.sent := rfl
@[simp] theorem SE.clearCarry_dir : (u.clearCarry).dir = u.dir := rfl
@[simp] theorem SE.clearCarry_pol : (u.clearCarry).pol = u.pol := rfl
@[simp] theorem SE.clearCarry_cfgOk : (u.clearCarry).cfgOk = u.cfgOk := rfl
@[simp] theorem SE.clearCarry_rx : (u.clearCarry).rx = u.rx := rfl
@[simp] theorem SE.clearCarry_tx : (u.clearCarry).tx = u.tx := rfl
@[simp] theorem SE.clearCarry_ev : (u.clearCarry).ev = u.ev := rfl

/-! `CF.emitNet` -/

@[simp] theorem CF.emitNet_cst : (c.emitNet w).cst = c.cst := rfl
@[simp] theorem CF.emitNet_ph : (c.emitNet w).ph = c.ph := rfl
@[simp] theorem CF.emitNet_allSent : (c.emitNet w).allSent = c.allSent := rfl
@[simp] theorem CF.emitNet_n : (c.emitNet w).n = c.n := rfl
@[simp] theorem CF.emitNet_m : (c.emitNet w).m = c.m := rfl
@[simp] theorem CF.emitNet_txp : (c.emitNet w).txp = c.txp := rfl
@[simp] theorem CF.emitNet_cc : (c.emitNet w).cc = c.cc := rfl
@[simp] theorem CF.emitNet_cause : (c.emitNet w).cause = c.cause := rfl
@[simp] theorem CF.emitNet_sent : (c.emitNet w).sent = c.sent := rfl
@[simp] theorem CF.emitNet_cfgOk : (c.emitNet w).cfgOk = c.cfgOk := rfl
@[simp] theorem CF.emitNet_cmd : (c.emitNet w).cmd = c.cmd := rfl
@[simp] theorem CF.emitNet_nrx : (c.emitNet w).nrx = c.nrx := rfl
@[simp] theorem CF.emitNet_ntx : (c.emitNet w).ntx = c.ntx ++ [w] := rfl
@[simp] theorem CF.emitNet_res : (c.emitNet w).res = c.res := rfl
@[simp] theorem CF.emitNet_ev : (c.emitNet w).ev = c.ev := rfl

/-! `CF.emitRes` -/

@[simp] theorem CF.emitRes_cst : (c.emitRes r).cst = c.cst := rfl
@[simp] theorem CF.emitRes_ph : (c.emitRes r).ph = c.ph := rfl
@[simp] theorem CF.emitRes_allSent : (c.emitRes r).allSent = c.allSent := rfl
@[simp] theorem CF.emitRes_n : (c.emitRes r).n = c.n := rfl
@[simp] theorem CF.emitRes_m : (c.emitRes r).m = c.m := rfl
@[simp] theorem CF.emitRes_txp : (c.emitRes r).txp = c.txp := rfl
@[simp] theorem CF.emitRes_cc : (c.emitRes r).cc = c.cc := rfl
@[simp] theorem CF.emitRes_cause : (c.emitRes r).cause = c.cause := rfl
@[simp] theorem CF.emitRes_sent : (c.emitRes r).sent = c.sent := rfl
@[simp] theorem CF.emitRes_cfgOk : (c.emitRes r).cfgOk = c.cfgOk := rfl
@[simp] theorem CF.emitRes_cmd : (c.emitRes r).cmd = c.cmd := rfl
@[simp] theorem CF.emitRes_nrx : (c.emitRes r).nrx = c.nrx := rfl
@[simp] theorem CF.emitRes_ntx : (c.emitRes r).ntx = c.ntx := rfl
@[simp] theorem CF.emitRes_res : (c.emitRes r).res = c.res ++ [r] := rfl
@[simp] theorem CF.emitRes_ev : (c.emitRes r).ev = c.ev := rfl

/-! `CF.event` -/

@[simp] theorem CF.event_cst : (c.event k a).cst = c.cst := rfl
@[simp] theorem CF.event_ph : (c.event k a).ph = c.ph := rfl
@[simp] theorem CF.event_allSent : (c.event k a).allSent = c.allSent := rfl
@[simp] theorem CF.event_n : (c.event k a).n = c.n := rfl
@[simp] theorem CF.event_m : (c.event k a).m = c.m := rfl
@[simp] theorem CF.event_txp : (c.event k a).txp = c.txp := rfl
@[simp] theorem CF.event_cc : (c.event k a).cc = c.cc := rfl
@[simp] theorem CF.event_cause : (c.event k a).cause = c.cause := rfl
@[simp] theorem CF.event_sent : (c.event k a).sent = c.sent := rfl
@[simp] theorem CF.event_cfgOk : (c.event k a).cfgOk = c.cfgOk := rfl
@[simp] theorem CF.event_cmd : (c.event k a).cmd = c.cmd := rfl
@[simp] theorem CF.event_nrx : (c.event k a).nrx = c.nrx := rfl
@[simp] theorem CF.event_ntx : (c.event k a).ntx = c.ntx := rfl
@[simp] theorem CF.event_res : (c.event k a).res = c.res := rfl
@[simp] theorem CF.event_ev : (c.event k a).ev = c.ev ++ [{ code := k, arg := a }] := rfl

end Units

/-! ### `Close` (R287) -/

section Close
variable (u : SE) (x : Cause)

@[simp] theorem SE.close_st : (u.close x).st = .closed := by
  cases h : u.cv <;> simp [SE.close, SE.event, SE.emit, SE.clearCarry, h]
@[simp] theorem SE.close_cv : (u.close x).cv = false := by
  cases h : u.cv <;> simp [SE.close, SE.event, SE.emit, SE.clearCarry, h]
@[simp] theorem SE.close_cb : (u.close x).cb = 0x00 := by
  cases h : u.cv <;> simp [SE.close, SE.event, SE.emit, SE.clearCarry, h]
@[simp] theorem SE.close_ts : (u.close x).ts = (u.ts || x == Cause.term) := by
  cases h : u.cv <;> simp [SE.close, SE.event, SE.emit, SE.clearCarry, h]
@[simp] theorem SE.close_cause : (u.close x).cause = x := by
  cases h : u.cv <;> simp [SE.close, SE.event, SE.emit, SE.clearCarry, h]
@[simp] theorem SE.close_sent : (u.close x).sent = u.sent := by
  cases h : u.cv <;> simp [SE.close, SE.event, SE.emit, SE.clearCarry, h]
@[simp] theorem SE.close_dir : (u.close x).dir = u.dir := by
  cases h : u.cv <;> simp [SE.close, SE.event, SE.emit, SE.clearCarry, h]
@[simp] theorem SE.close_pol : (u.close x).pol = u.pol := by
  cases h : u.cv <;> simp [SE.close, SE.event, SE.emit, SE.clearCarry, h]
@[simp] theorem SE.close_cfgOk : (u.close x).cfgOk = u.cfgOk := by
  cases h : u.cv <;> simp [SE.close, SE.event, SE.emit, SE.clearCarry, h]
@[simp] theorem SE.close_rx : (u.close x).rx = u.rx := by
  cases h : u.cv <;> simp [SE.close, SE.event, SE.emit, SE.clearCarry, h]
@[simp] theorem SE.close_tx : (u.close x).tx = u.tx ++ [closeWord] := by
  cases h : u.cv <;> simp [SE.close, SE.event, SE.emit, SE.clearCarry, h]
@[simp] theorem SE.close_ev : (u.close x).ev = u.ev ++ (if u.cv then [{ code := .carryDropped, arg := 0x0 }] else []) ++
      [{ code := .closed, arg := x.bits }] := by
  cases h : u.cv <;> simp [SE.close, SE.event, SE.emit, SE.clearCarry, h]

end Close

/-! ### `Fail` (R288) -/

section Fail
variable (c : CF) (x : Cause)

@[simp] theorem CF.fails_cst : (c.fails x).cst = .fail := by
  unfold CF.fails; split <;> simp_all [CF.event, CF.emitRes, CF.emitNet]
@[simp] theorem CF.fails_ph : (c.fails x).ph = c.ph := by
  unfold CF.fails; split <;> simp_all [CF.event, CF.emitRes, CF.emitNet]
@[simp] theorem CF.fails_allSent : (c.fails x).allSent = c.allSent := by
  unfold CF.fails; split <;> simp_all [CF.event, CF.emitRes, CF.emitNet]
@[simp] theorem CF.fails_n : (c.fails x).n = c.n := by
  unfold CF.fails; split <;> simp_all [CF.event, CF.emitRes, CF.emitNet]
@[simp] theorem CF.fails_m : (c.fails x).m = c.m := by
  unfold CF.fails; split <;> simp_all [CF.event, CF.emitRes, CF.emitNet]
@[simp] theorem CF.fails_txp : (c.fails x).txp = c.txp := by
  unfold CF.fails; split <;> simp_all [CF.event, CF.emitRes, CF.emitNet]
@[simp] theorem CF.fails_cc : (c.fails x).cc = c.cc := by
  unfold CF.fails; split <;> simp_all [CF.event, CF.emitRes, CF.emitNet]
@[simp] theorem CF.fails_cause : (c.fails x).cause = x := by
  unfold CF.fails; split <;> simp_all [CF.event, CF.emitRes, CF.emitNet]
@[simp] theorem CF.fails_sent : (c.fails x).sent = c.sent := by
  unfold CF.fails; split <;> simp_all [CF.event, CF.emitRes, CF.emitNet]
@[simp] theorem CF.fails_cfgOk : (c.fails x).cfgOk = c.cfgOk := by
  unfold CF.fails; split <;> simp_all [CF.event, CF.emitRes, CF.emitNet]
@[simp] theorem CF.fails_cmd : (c.fails x).cmd = c.cmd := by
  unfold CF.fails; split <;> simp_all [CF.event, CF.emitRes, CF.emitNet]
@[simp] theorem CF.fails_nrx : (c.fails x).nrx = c.nrx := by
  unfold CF.fails; split <;> simp_all [CF.event, CF.emitRes, CF.emitNet]
@[simp] theorem CF.fails_ntx : (c.fails x).ntx = c.ntx ++ (if c.cst = .hsWait ∨ c.cst = .stream then [closeWord] else []) := by
  unfold CF.fails; split <;> simp_all [CF.event, CF.emitRes, CF.emitNet]
@[simp] theorem CF.fails_res : (c.fails x).res = c.res ++ [.fail x] := by
  unfold CF.fails; split <;> simp_all [CF.event, CF.emitRes, CF.emitNet]
@[simp] theorem CF.fails_ev : (c.fails x).ev = c.ev ++ [{ code := .closed, arg := x.bits }] := by
  unfold CF.fails; split <;> simp_all [CF.event, CF.emitRes, CF.emitNet]

end Fail

/-! ### The transport's places -/

section Places
variable (s : State) (lane : Lane) (l : LaneState) (ws : List NetWord) (w : NetWord)

@[simp] theorem State.setLane_se : (s.setLane lane l).se = s.se := by
  cases lane <;> rfl
@[simp] theorem State.setLane_cf : (s.setLane lane l).cf = s.cf := by
  cases lane <;> rfl
@[simp] theorem State.setLane_comb : (s.setLane lane l).comb = s.comb := by
  cases lane <;> rfl
@[simp] theorem State.setLane_data : (s.setLane lane l).data = s.data := by
  cases lane <;> rfl
@[simp] theorem State.setLane_key : (s.setLane lane l).key = s.key := by
  cases lane <;> rfl
@[simp] theorem State.setLane_sePorts : (s.setLane lane l).sePorts = s.sePorts := by
  cases lane <;> rfl
@[simp] theorem State.setLane_cfPorts : (s.setLane lane l).cfPorts = s.cfPorts := by
  cases lane <;> rfl
@[simp] theorem State.setLane_params : (s.setLane lane l).params = s.params := by
  cases lane <;> rfl
@[simp] theorem State.setLane_bench : (s.setLane lane l).bench = s.bench := by
  cases lane <;> rfl
@[simp] theorem State.setLane_script : (s.setLane lane l).script = s.script := by
  cases lane <;> rfl

@[simp] theorem State.setWritten_comb : (s.setWritten lane ws).comb = s.comb := by
  cases lane <;> rfl
@[simp] theorem State.setWritten_link : (s.setWritten lane ws).link = s.link := by
  cases lane <;> rfl
@[simp] theorem State.setWritten_data : (s.setWritten lane ws).data = s.data := by
  cases lane <;> rfl
@[simp] theorem State.setWritten_key : (s.setWritten lane ws).key = s.key := by
  cases lane <;> rfl
@[simp] theorem State.setWritten_sePorts : (s.setWritten lane ws).sePorts = s.sePorts := by
  cases lane <;> rfl
@[simp] theorem State.setWritten_cfPorts : (s.setWritten lane ws).cfPorts = s.cfPorts := by
  cases lane <;> rfl
@[simp] theorem State.setWritten_params : (s.setWritten lane ws).params = s.params := by
  cases lane <;> rfl
@[simp] theorem State.setWritten_bench : (s.setWritten lane ws).bench = s.bench := by
  cases lane <;> rfl
@[simp] theorem State.setWritten_script : (s.setWritten lane ws).script = s.script := by
  cases lane <;> rfl

@[simp] theorem State.pushRead_comb : (s.pushRead lane w).comb = s.comb := by
  cases lane <;> rfl
@[simp] theorem State.pushRead_link : (s.pushRead lane w).link = s.link := by
  cases lane <;> rfl
@[simp] theorem State.pushRead_data : (s.pushRead lane w).data = s.data := by
  cases lane <;> rfl
@[simp] theorem State.pushRead_key : (s.pushRead lane w).key = s.key := by
  cases lane <;> rfl
@[simp] theorem State.pushRead_sePorts : (s.pushRead lane w).sePorts = s.sePorts := by
  cases lane <;> rfl
@[simp] theorem State.pushRead_cfPorts : (s.pushRead lane w).cfPorts = s.cfPorts := by
  cases lane <;> rfl
@[simp] theorem State.pushRead_params : (s.pushRead lane w).params = s.params := by
  cases lane <;> rfl
@[simp] theorem State.pushRead_bench : (s.pushRead lane w).bench = s.bench := by
  cases lane <;> rfl
@[simp] theorem State.pushRead_script : (s.pushRead lane w).script = s.script := by
  cases lane <;> rfl

@[simp] theorem State.setLane_lane : (s.setLane lane l).lane lane = l := by
  cases lane <;> rfl
@[simp] theorem State.setLane_lane_other :
    (s.setLane lane l).lane lane.other = s.lane lane.other := by
  cases lane <;> rfl
@[simp] theorem State.setLane_other_lane :
    (s.setLane lane.other l).lane lane = s.lane lane := by
  cases lane <;> rfl
@[simp] theorem State.setWritten_lane (k : Lane) : (s.setWritten lane ws).lane k = s.lane k := by
  cases lane <;> cases k <;> rfl
@[simp] theorem State.pushRead_lane (k : Lane) : (s.pushRead lane w).lane k = s.lane k := by
  cases lane <;> cases k <;> rfl
@[simp] theorem State.setLane_readerChannel (k : Lane) :
    (s.setLane lane l).readerChannel k = s.readerChannel k := by
  cases lane <;> cases k <;> rfl
@[simp] theorem State.setWritten_readerChannel (k : Lane) :
    (s.setWritten lane ws).readerChannel k = s.readerChannel k := by
  cases lane <;> cases k <;> rfl
@[simp] theorem State.pushRead_readerChannel :
    (s.pushRead lane w).readerChannel lane = s.readerChannel lane ++ [w] := by
  cases lane <;> rfl
@[simp] theorem State.pushRead_readerChannel_other :
    (s.pushRead lane w).readerChannel lane.other = s.readerChannel lane.other := by
  cases lane <;> rfl
@[simp] theorem State.setLane_written (k : Lane) :
    (s.setLane lane l).written k = s.written k := by
  cases lane <;> cases k <;> rfl
@[simp] theorem State.pushRead_written (k : Lane) :
    (s.pushRead lane w).written k = s.written k := by
  cases lane <;> cases k <;> rfl
@[simp] theorem Lane.other_other : lane.other.other = lane := by
  cases lane <;> rfl
@[simp] theorem State.setWritten_written : (s.setWritten lane ws).written lane = ws := by
  cases lane <;> rfl

@[simp] theorem State.setLane_netBuf (k : Lane) : (s.setLane lane l).netBuf k = s.netBuf k := by
  cases lane <;> rfl
@[simp] theorem State.setWritten_netBuf (k : Lane) : (s.setWritten lane ws).netBuf k = s.netBuf k := by
  cases lane <;> rfl
@[simp] theorem State.pushRead_netBuf (k : Lane) : (s.pushRead lane w).netBuf k = s.netBuf k := by
  cases lane <;> rfl

@[simp] theorem State.setLane_readerRoom (k : Lane) :
    (s.setLane lane l).readerRoom k = s.readerRoom k := by
  cases lane <;> rfl
@[simp] theorem State.setWritten_readerRoom (k : Lane) :
    (s.setWritten lane ws).readerRoom k = s.readerRoom k := by
  cases lane <;> rfl
@[simp] theorem State.pushRead_readerRoom (k : Lane) :
    (s.pushRead lane w).readerRoom k = s.readerRoom k := by
  cases lane <;> rfl

/-! What the end of a connection changes (R329): the two directions, and nothing else. -/

@[simp] theorem endConnection_se : (endConnection lane s).se = s.se := by
  cases lane <;> rfl
@[simp] theorem endConnection_cf : (endConnection lane s).cf = s.cf := by
  cases lane <;> rfl
@[simp] theorem endConnection_comb : (endConnection lane s).comb = s.comb := by
  cases lane <;> rfl
@[simp] theorem endConnection_data : (endConnection lane s).data = s.data := by
  cases lane <;> rfl
@[simp] theorem endConnection_key : (endConnection lane s).key = s.key := by
  cases lane <;> rfl
@[simp] theorem endConnection_sePorts : (endConnection lane s).sePorts = s.sePorts := by
  cases lane <;> rfl
@[simp] theorem endConnection_cfPorts : (endConnection lane s).cfPorts = s.cfPorts := by
  cases lane <;> rfl
@[simp] theorem endConnection_params : (endConnection lane s).params = s.params := by
  cases lane <;> rfl
@[simp] theorem endConnection_bench : (endConnection lane s).bench = s.bench := by
  cases lane <;> rfl
@[simp] theorem endConnection_script : (endConnection lane s).script = s.script := by
  cases lane <;> rfl
@[simp] theorem endConnection_lane :
    (endConnection lane s).lane lane = { s.lane lane with closed := true, writerReset := true } := by
  cases lane <;> rfl
@[simp] theorem endConnection_lane_other :
    (endConnection lane s).lane lane.other =
      { s.lane lane.other with buf := [], ended := true, chunkLen := 0 } := by
  cases lane <;> rfl

/-! The data bytes of a channel (R92). -/

@[simp] theorem byteData_nil : byteData [] = [] := rfl
@[simp] theorem byteData_append (a b : List NetWord) :
    byteData (a ++ b) = byteData a ++ byteData b := by
  simp [byteData]
@[simp] theorem byteData_byteWord (last : Bool) (b : Byte) : byteData [byteWord last b] = [b] := rfl
@[simp] theorem byteData_eofWord : byteData [eofWord] = [] := rfl
@[simp] theorem byteData_ioerrWord : byteData [ioerrWord] = [] := rfl

/-- Taking words from a channel leaves no more bytes in it. -/
theorem byteData_length_le_of_suffix {a b : List NetWord} (h : a <:+ b) :
    (byteData a).length ≤ (byteData b).length := by
  obtain ⟨pre, rfl⟩ := h
  simp

/-! The source read port (R57, R81) -/

@[simp] theorem Space.ofBits_bits (space : Space) : Space.ofBits space.bits = space := by
  cases space <;> rfl
@[simp] theorem State.sourceData_bits (space : Space) (a : Nat) :
    s.sourceData space.bits a = (s.space space).read a := by
  simp [State.sourceData]

end Places

end Sys2Proof.Machine
end

