-- ==== Sys2Proof/Laws/Ops.lean ====
section
/-! SUPPORT. Once for each shared operation, everything it can do, and the equations of the enabled
case. -/

namespace Sys2Proof.Machine

open Host

section Enabled

/-- An SE step with a word waiting and room for what it writes. -/
theorem seTake_enabled {need : SE → NetWord → Nat} {act : SE → NetWord → SE} {s : State}
    {w : NetWord} {rest : List NetWord} (hw : s.se.rx = w :: rest)
    (hroom : s.se.tx.length + need s.se w ≤ s.params.obuf) :
    seTake need act s = .next { s with se := act { s.se with rx := rest } w } := by
  simp [seTake, hw, hroom]

/-- A CF step on a net word, with room for what it writes. -/
theorem cfTakeNet_enabled {net res : CF → Nat} {act : CF → NetWord → CF} {s : State}
    {w : NetWord} {rest : List NetWord} (hw : s.cf.nrx = w :: rest)
    (hroom : s.cf.hasRoom s.params (net s.cf) (res s.cf) = true) :
    cfTakeNet net res act s = .next { s with cf := act { s.cf with nrx := rest } w } := by
  simp [cfTakeNet, hw, hroom]

/-- A CF step on a command word, with room for what it writes. -/
theorem cfTakeCommand_enabled {net res : CF → Nat} {act : CF → CmdWord → CF} {s : State}
    {w : CmdWord} {rest : List CmdWord} (hw : s.cf.cmd = w :: rest)
    (hroom : s.cf.hasRoom s.params (net s.cf) (res s.cf) = true) :
    cfTakeCommand net res act s = .next { s with cf := act { s.cf with cmd := rest } w } := by
  simp [cfTakeCommand, hw, hroom]

theorem cfSend_enabled {act : CF → CF} {s : State} (hroom : s.cf.hasRoom s.params 1 0 = true) :
    cfSend act s = .next { s with cf := act s.cf } := by
  simp [cfSend, hroom]

theorem CF.hasRoom_iff (p : Params) (c : CF) (net res : Nat) :
    c.hasRoom p net res = true ↔ c.ntx.length + net ≤ p.obuf ∧ c.res.length + res ≤ p.obuf := by
  simp [CF.hasRoom]

end Enabled

section Cases

/-- Everything an SE step can do: it holds, or it takes the oldest word with room for what it writes. -/
theorem seTake_cases {need : SE → NetWord → Nat} {act : SE → NetWord → SE} {s t : State}
    (h : seTake need act s = .next t) :
    t = s ∨ ∃ w rest, s.se.rx = w :: rest ∧
      s.se.tx.length + need s.se w ≤ s.params.obuf ∧
      t = { s with se := act { s.se with rx := rest } w } := by
  unfold seTake at h
  split at h
  · exact .inl (by simpa using h.symm)
  · next w rest hw =>
    split at h
    · next hroom => exact .inr ⟨w, rest, hw, hroom, by simpa using h.symm⟩
    · exact .inl (by simpa using h.symm)

/-- An SE step never stops the machine. -/
theorem seTake_next (need : SE → NetWord → Nat) (act : SE → NetWord → SE) (s : State) :
    ∃ t, seTake need act s = .next t := by
  unfold seTake
  split
  · exact ⟨_, rfl⟩
  · split <;> exact ⟨_, rfl⟩

/-- Everything a CF step on a net word can do. -/
theorem cfTakeNet_cases {net res : CF → Nat} {act : CF → NetWord → CF} {s t : State}
    (h : cfTakeNet net res act s = .next t) :
    t = s ∨ ∃ w rest, s.cf.nrx = w :: rest ∧
      s.cf.hasRoom s.params (net s.cf) (res s.cf) = true ∧
      t = { s with cf := act { s.cf with nrx := rest } w } := by
  unfold cfTakeNet at h
  split at h
  · exact .inl (by simpa using h.symm)
  · next w rest hw =>
    split at h
    · next hroom => exact .inr ⟨w, rest, hw, hroom, by simpa using h.symm⟩
    · exact .inl (by simpa using h.symm)

/-- Everything a CF step on a command word can do. -/
theorem cfTakeCommand_cases {net res : CF → Nat} {act : CF → CmdWord → CF} {s t : State}
    (h : cfTakeCommand net res act s = .next t) :
    t = s ∨ ∃ w rest, s.cf.cmd = w :: rest ∧
      s.cf.hasRoom s.params (net s.cf) (res s.cf) = true ∧
      t = { s with cf := act { s.cf with cmd := rest } w } := by
  unfold cfTakeCommand at h
  split at h
  · exact .inl (by simpa using h.symm)
  · next w rest hw =>
    split at h
    · next hroom => exact .inr ⟨w, rest, hw, hroom, by simpa using h.symm⟩
    · exact .inl (by simpa using h.symm)

/-- Everything an internal CF step can do. -/
theorem cfSend_cases {act : CF → CF} {s t : State} (h : cfSend act s = .next t) :
    t = s ∨ s.cf.hasRoom s.params 1 0 = true ∧ t = { s with cf := act s.cf } := by
  unfold cfSend at h
  split at h
  · next hroom => exact .inr ⟨hroom, by simpa using h.symm⟩
  · exact .inl (by simpa using h.symm)

/-- Everything the placing of a byte can do. -/
theorem place_cases {space : Space} {addr : Nat} {b : Byte} {s t : State}
    (h : place space addr b s = .next t) :
    addr < 2 ^ s.params.lenW ∧ s.inSession = false ∧
      t = s.setSpace space ((s.space space).write addr b) := by
  unfold place at h
  split at h
  · cases h
  · next ha =>
    split at h
    · cases h
    · next hs => exact ⟨not_le.mp ha, by simpa using hs, by simpa using h.symm⟩

end Cases

section Transport
variable (lane : Lane) (s : State)

/-- What the transport takes from a writer's channel. -/
theorem carry_cases :
    carry lane s = s ∨ ∃ w rest, s.written lane = w :: rest ∧
      s.full lane = false ∧ (s.lane lane).closed = false ∧
      ((w.kind = .byte ∧ carry lane s = (s.setWritten lane rest).setLane lane
          { s.lane lane with buf := (s.lane lane).buf ++ [w.data] }) ∨
       (w.kind = .close ∧ carry lane s = (s.setWritten lane rest).setLane lane
          { s.lane lane with closed := true })) := by
  unfold carry
  cases hw : s.written lane with
  | nil => exact .inl rfl
  | cons w rest =>
    by_cases hfull : (s.full lane || (s.lane lane).closed) = true
    · exact .inl (by simp [hfull])
    · have hf : s.full lane = false ∧ (s.lane lane).closed = false := by
        simpa using hfull
      cases hk : w.kind with
      | byte => exact .inr ⟨w, rest, rfl, hf.1, hf.2, .inl ⟨hk, by simp [hf, hk]⟩⟩
      | close => exact .inr ⟨w, rest, rfl, hf.1, hf.2, .inr ⟨hk, by simp [hf, hk]⟩⟩
      | eof => exact .inl (by simp [hk])
      | ioerr => exact .inl (by simp [hk])

/-- What a delivery does. -/
theorem deliver_cases (last : Bool) :
    deliver lane last s = s ∨ ∃ b rest, (s.lane lane).buf = b :: rest ∧
      (s.lane lane).ended = false ∧ s.readerFull lane = false ∧
      (last = true ∨ (s.lane lane).chunkLen + 1 < s.params.rxCap) ∧
      deliver lane last s = (s.pushRead lane (byteWord last b)).setLane lane
        { s.lane lane with
          buf := rest, chunkLen := if last then 0 else (s.lane lane).chunkLen + 1 } := by
  unfold deliver
  cases hb : (s.lane lane).buf with
  | nil => exact .inl (by simp [hb])
  | cons b rest =>
    by_cases hc : (!(s.lane lane).ended && !s.readerFull lane &&
        (last || decide ((s.lane lane).chunkLen + 1 < s.params.rxCap))) = true
    · have := hc
      simp only [Bool.and_eq_true, Bool.not_eq_true', Bool.or_eq_true, decide_eq_true_eq] at this
      exact .inr ⟨b, rest, rfl, this.1.1, this.1.2, this.2, by simp [hb, hc]⟩
    · exact .inl (by simp [hb, hc])

/-- What the delivery of EOF does. -/
theorem deliverEof_cases :
    deliverEof lane s = s ∨ ((s.lane lane).closed = true ∧ (s.lane lane).buf = [] ∧
      (s.lane lane).ended = false ∧ s.readerStarted lane = true ∧
      deliverEof lane s = (s.pushRead lane eofWord).setLane lane
        { s.lane lane with ended := true }) := by
  unfold deliverEof
  by_cases hc : ((s.lane lane).closed && (s.lane lane).buf.isEmpty &&
      !(s.lane lane).ended && s.readerStarted lane) = true
  · have := hc
    simp only [Bool.and_eq_true, List.isEmpty_iff, Bool.not_eq_true'] at this
    exact .inr ⟨this.1.1.1, this.1.1.2, this.1.2, this.2, by simp [hc]⟩
  · exact .inl (by simp [hc])

/-- What the delivery of IOERR does. -/
theorem deliverErr_cases :
    deliverErr lane s = s ∨ ((s.lane lane).ended = false ∧
      deliverErr lane s = (s.pushRead lane ioerrWord).setLane lane
        { s.lane lane with ended := true }) := by
  unfold deliverErr
  cases h : (s.lane lane).ended
  · exact .inr ⟨rfl, by simp [h]⟩
  · exact .inl (by simp [h])

/-- What a drop does. -/
theorem dropWord_cases :
    dropWord lane s = s ∨ (s.readerClosed lane = true ∧
      ((∃ b rest, (s.lane lane).buf = b :: rest ∧
          dropWord lane s = s.setLane lane { s.lane lane with buf := rest }) ∨
       ((s.lane lane).buf = [] ∧ (s.lane lane).writerReset = false ∧
          dropWord lane s = s.setWritten lane (s.written lane).tail))) := by
  unfold dropWord
  split
  · next h =>
    cases hb : (s.lane lane).buf with
    | nil =>
      cases hr : (s.lane lane).writerReset with
      | true => exact .inl (by simp)
      | false => exact .inr ⟨h, .inr ⟨rfl, rfl, by simp⟩⟩
    | cons b rest => exact .inr ⟨h, .inl ⟨b, rest, rfl, by simp⟩⟩
  · exact .inl rfl

/-- What the connecting of a new transport does. -/
theorem connect_cases :
    connect s = s ∨ (s.betweenSessions = true ∧
      connect s = { s with link := { c2s := LaneState.empty, s2c := LaneState.empty } }) := by
  unfold connect
  split
  · next h => exact .inr ⟨h, rfl⟩
  · exact .inl rfl

/-- What a test host's word does. -/
theorem benchPut_cases (w : NetWord) :
    benchPut lane w s = s ∨ (s.bench = true ∧ benchPut lane w s = s.pushRead lane w) := by
  unfold benchPut
  split
  · next h => exact .inr ⟨h, rfl⟩
  · exact .inl rfl

/-- What a test host's taking does. -/
theorem benchTake_cases :
    benchTake lane s = s ∨
      (s.bench = true ∧ benchTake lane s = s.setWritten lane (s.written lane).tail) := by
  unfold benchTake
  split
  · next h => exact .inr ⟨h, rfl⟩
  · exact .inl rfl

/-- What the writing of a command does. -/
theorem sendCommand_cases (bits : Nat) :
    sendCommand bits s = s ∨ ∃ w, w = CmdWord.ofBits s.params.lenW bits ∧
      s.mayCommand w = true ∧
      sendCommand bits s = { s with cf := { s.cf with cmd := s.cf.cmd ++ [w] } } := by
  simp only [sendCommand]
  split
  · next h => exact .inr ⟨_, rfl, h, rfl⟩
  · exact .inl rfl

end Transport

section Reset

/-- What SE's reset step leaves (R310, R58). -/
theorem SE.resetStep_legal (p : SeCfgPorts) (h : seCfgLegal p.sent p.pol = true) :
    SE.resetStep p =
      { st := .awaitHs, cv := false, cb := 0x00, ts := false, cause := .none, sent := p.sent,
        dir := p.dir, pol := p.pol, cfgOk := true, rx := [], tx := [], ev := [] } := by
  simp [SE.resetStep, h]

theorem SE.resetStep_illegal (p : SeCfgPorts) (h : seCfgLegal p.sent p.pol = false) :
    SE.resetStep p =
      { st := .closed, cv := false, cb := 0x00, ts := false, cause := .cfgIllegal, sent := p.sent,
        dir := p.dir, pol := p.pol, cfgOk := false, rx := [], tx := [closeWord],
        ev := [{ code := .closed, arg := 0x9 }] } := by
  simp [SE.resetStep, h, SE.emit, SE.event, Cause.bits]

/-- What CF's reset step leaves (R310, R59). -/
theorem CF.resetStep_legal (p : CfCfgPorts) (h : cfCfgLegal p.sent = true) :
    CF.resetStep p =
      { cst := .idle, ph := false, allSent := false, n := 0, m := 0, txp := 0, cc := 0,
        cause := .none, sent := p.sent, cfgOk := true, cmd := [], nrx := [], ntx := [], res := [],
        ev := [] } := by
  simp [CF.resetStep, h]

theorem CF.resetStep_illegal (p : CfCfgPorts) (h : cfCfgLegal p.sent = false) :
    CF.resetStep p =
      { cst := .fail, ph := false, allSent := false, n := 0, m := 0, txp := 0, cc := 0,
        cause := .cfgIllegal, sent := p.sent, cfgOk := false, cmd := [], nrx := [], ntx := [],
        res := [.fail .cfgIllegal], ev := [{ code := .closed, arg := 0x9 }] } := by
  simp [CF.resetStep, h, CF.emitRes, CF.event, Cause.bits]

/-- The state after reset is what the two reset steps leave, from the ports as they then are. -/
theorem reset_is_resetStep :
    State.reset.se = SE.resetStep State.reset.sePorts ∧
      State.reset.cf = CF.resetStep State.reset.cfPorts := by
  constructor <;> rfl

end Reset

section Step

@[simp] theorem step_nil (s : State) (h : s.script = []) : step s = .next s := by
  simp [step, nextMove, h]

theorem step_cons (s : State) (m : Move) (rest : List Move) (h : s.script = m :: rest) :
    step s = doMove m { s with script := rest } := by
  simp [step, nextMove, h]

/-- A unit's step, once its word and the instruction it decodes to are known. -/
theorem unitStep_decoded {m : Move} {s : State} {v : InstrWord} {i : Instr}
    (hv : presented m s = some v) (hi : decode v = .ok i) :
    unitStep m s = exec i (present m s) := by
  simp [unitStep, hv, hi]

end Step

end Sys2Proof.Machine
end

