-- ==== Sys2Proof/Laws/PerInstr.lean ====
section
/-! SUPPORT. The family TableRow: every instruction's word has the format, the match and the mask that
its row of `opcode_table.json` gives (R136). One lemma per constructor. -/

namespace Sys2Proof.Laws

/-- The formats of `opcode_table.json` (R136). -/
inductive Format where
  | seDv
  | cfDv
  | byte
  | cfgDir
  | cfgPol
deriving DecidableEq, Repr

/-- A row of the table: its format, and the match and mask of its pattern. -/
structure Row where
  format : Format
  matchBits : Nat
  maskBits : Nat
deriving DecidableEq, Repr

/-- The row of an instruction, as the table gives it. -/
def row : Instr → Row
  | .seHsOk _ => ⟨.seDv, 1, 55⟩
  | .seHsBad _ => ⟨.seDv, 0, 55⟩
  | .seHsEof _ _ => ⟨.seDv, 2, 54⟩
  | .seHsErr _ _ => ⟨.seDv, 4, 54⟩
  | .seIllegal _ _ _ => ⟨.seDv, 6, 38⟩
  | .seData => ⟨.seDv, 16, 63⟩
  | .seTerm => ⟨.seDv, 17, 63⟩
  | .seKey _ => ⟨.seDv, 24, 62⟩
  | .seEof _ _ => ⟨.seDv, 18, 54⟩
  | .seIoerr _ _ => ⟨.seDv, 20, 54⟩
  | .seDiscard _ _ _ => ⟨.seDv, 32, 48⟩
  | .seReservedState _ _ _ => ⟨.seDv, 48, 48⟩
  | .cfStartOk _ _ => ⟨.cfDv, 259, 999⟩
  | .cfStartKeylen _ _ => ⟨.cfDv, 258, 999⟩
  | .cfCmdIllegal1 _ _ _ => ⟨.cfDv, 256, 998⟩
  | .cfCmdIllegal2 _ _ _ => ⟨.cfDv, 260, 998⟩
  | .cfCmdIllegal3 _ _ _ => ⟨.cfDv, 262, 998⟩
  | .cfHsOk _ _ => ⟨.cfDv, 545, 999⟩
  | .cfHsBad _ _ => ⟨.cfDv, 544, 999⟩
  | .cfHsEof _ _ _ => ⟨.cfDv, 546, 998⟩
  | .cfHsErr _ _ _ => ⟨.cfDv, 548, 998⟩
  | .cfNetIllegal1 _ _ _ => ⟨.cfDv, 550, 998⟩
  | .cfNetIllegal2 _ _ => ⟨.cfDv, 598, 1014⟩
  | .cfSendByte => ⟨.cfDv, 65, 1023⟩
  | .cfSendSent => ⟨.cfDv, 64, 1023⟩
  | .cfRecvByte _ => ⟨.cfDv, 592, 1015⟩
  | .cfRecvTerm _ => ⟨.cfDv, 593, 1015⟩
  | .cfRecvEof _ _ => ⟨.cfDv, 594, 1014⟩
  | .cfRecvErr _ _ => ⟨.cfDv, 596, 1014⟩
  | .cfDiscard1 _ _ _ => ⟨.cfDv, 512, 992⟩
  | .cfDiscard2 _ _ _ => ⟨.cfDv, 608, 992⟩
  | .cfDiscard3 _ _ _ => ⟨.cfDv, 640, 992⟩
  | .symA => ⟨.byte, 65, 255⟩
  | .symB => ⟨.byte, 66, 255⟩
  | .symC => ⟨.byte, 67, 255⟩
  | .symD => ⟨.byte, 68, 255⟩
  | .symE => ⟨.byte, 69, 255⟩
  | .symF => ⟨.byte, 70, 255⟩
  | .symG => ⟨.byte, 71, 255⟩
  | .symH => ⟨.byte, 72, 255⟩
  | .symI => ⟨.byte, 73, 255⟩
  | .symJ => ⟨.byte, 74, 255⟩
  | .symK => ⟨.byte, 75, 255⟩
  | .symL => ⟨.byte, 76, 255⟩
  | .symM => ⟨.byte, 77, 255⟩
  | .symN => ⟨.byte, 78, 255⟩
  | .symO => ⟨.byte, 79, 255⟩
  | .symP => ⟨.byte, 80, 255⟩
  | .symQ => ⟨.byte, 81, 255⟩
  | .symR => ⟨.byte, 82, 255⟩
  | .symS => ⟨.byte, 83, 255⟩
  | .symT => ⟨.byte, 84, 255⟩
  | .symU => ⟨.byte, 85, 255⟩
  | .symV => ⟨.byte, 86, 255⟩
  | .symW => ⟨.byte, 87, 255⟩
  | .symX => ⟨.byte, 88, 255⟩
  | .symY => ⟨.byte, 89, 255⟩
  | .symZ => ⟨.byte, 90, 255⟩
  | .symSpace => ⟨.byte, 32, 255⟩
  | .sentEncService => ⟨.byte, 36, 255⟩
  | .sentDecService => ⟨.byte, 64, 255⟩
  | .markByte => ⟨.byte, 63, 255⟩
  | .byteInvalid _ => ⟨.byte, 0, 0⟩
  | .xformEnc => ⟨.cfgDir, 0, 1⟩
  | .xformDec => ⟨.cfgDir, 1, 1⟩
  | .polSkip => ⟨.cfgPol, 0, 3⟩
  | .polMark => ⟨.cfgPol, 1, 3⟩
  | .polAbort => ⟨.cfgPol, 2, 3⟩
  | .polIllegal => ⟨.cfgPol, 3, 3⟩

/-- The format of a word. -/
def formatOf : InstrWord → Format
  | .seDv _ => .seDv
  | .cfDv _ => .cfDv
  | .byte _ => .byte
  | .cfgDir _ => .cfgDir
  | .cfgPol _ => .cfgPol

/-- The bits of a word, as one number. -/
def bitsOf : InstrWord → Nat
  | .seDv v => v.toNat
  | .cfDv v => v.toNat
  | .byte b => b.toNat
  | .cfgDir d => d.toNat
  | .cfgPol p => p.toNat

/-- A word matches a row. -/
def Row.Matches (r : Row) (w : InstrWord) : Prop :=
  formatOf w = r.format ∧ bitsOf w &&& r.maskBits = r.matchBits

/-- The word of an instruction matches the instruction's row. -/
def TableRow.Statement (i : Instr) : Prop := (row i).Matches (encode i)

namespace TableRow

theorem seHsOk (cv : Bool) : Statement (.seHsOk cv) := by
  refine ⟨rfl, ?_⟩
  revert cv
  decide
theorem seHsBad (cv : Bool) : Statement (.seHsBad cv) := by
  refine ⟨rfl, ?_⟩
  revert cv
  decide
theorem seHsEof (cv : Bool) (sm : Bool) : Statement (.seHsEof cv sm) := by
  refine ⟨rfl, ?_⟩
  revert cv sm
  decide
theorem seHsErr (cv : Bool) (sm : Bool) : Statement (.seHsErr cv sm) := by
  refine ⟨rfl, ?_⟩
  revert cv sm
  decide
theorem seIllegal (st0 : Bool) (cv : Bool) (sm : Bool) : Statement (.seIllegal st0 cv sm) := by
  refine ⟨rfl, ?_⟩
  revert st0 cv sm
  decide
theorem seData : Statement .seData := ⟨rfl, rfl⟩
theorem seTerm : Statement .seTerm := ⟨rfl, rfl⟩
theorem seKey (sm : Bool) : Statement (.seKey sm) := by
  refine ⟨rfl, ?_⟩
  revert sm
  decide
theorem seEof (cv : Bool) (sm : Bool) : Statement (.seEof cv sm) := by
  refine ⟨rfl, ?_⟩
  revert cv sm
  decide
theorem seIoerr (cv : Bool) (sm : Bool) : Statement (.seIoerr cv sm) := by
  refine ⟨rfl, ?_⟩
  revert cv sm
  decide
theorem seDiscard (cv : Bool) (kind : BitVec 2) (sm : Bool) : Statement (.seDiscard cv kind sm) := by
  refine ⟨rfl, ?_⟩
  revert cv kind sm
  decide
theorem seReservedState (cv : Bool) (kind : BitVec 2) (sm : Bool) : Statement (.seReservedState cv kind sm) := by
  refine ⟨rfl, ?_⟩
  revert cv kind sm
  decide
theorem cfStartOk (ph : Bool) (allSent : Bool) : Statement (.cfStartOk ph allSent) := by
  refine ⟨rfl, ?_⟩
  revert ph allSent
  decide
theorem cfStartKeylen (ph : Bool) (allSent : Bool) : Statement (.cfStartKeylen ph allSent) := by
  refine ⟨rfl, ?_⟩
  revert ph allSent
  decide
theorem cfCmdIllegal1 (ph : Bool) (allSent : Bool) (keyOk : Bool) : Statement (.cfCmdIllegal1 ph allSent keyOk) := by
  refine ⟨rfl, ?_⟩
  revert ph allSent keyOk
  decide
theorem cfCmdIllegal2 (ph : Bool) (allSent : Bool) (keyOk : Bool) : Statement (.cfCmdIllegal2 ph allSent keyOk) := by
  refine ⟨rfl, ?_⟩
  revert ph allSent keyOk
  decide
theorem cfCmdIllegal3 (ph : Bool) (allSent : Bool) (keyOk : Bool) : Statement (.cfCmdIllegal3 ph allSent keyOk) := by
  refine ⟨rfl, ?_⟩
  revert ph allSent keyOk
  decide
theorem cfHsOk (ph : Bool) (allSent : Bool) : Statement (.cfHsOk ph allSent) := by
  refine ⟨rfl, ?_⟩
  revert ph allSent
  decide
theorem cfHsBad (ph : Bool) (allSent : Bool) : Statement (.cfHsBad ph allSent) := by
  refine ⟨rfl, ?_⟩
  revert ph allSent
  decide
theorem cfHsEof (ph : Bool) (allSent : Bool) (sm : Bool) : Statement (.cfHsEof ph allSent sm) := by
  refine ⟨rfl, ?_⟩
  revert ph allSent sm
  decide
theorem cfHsErr (ph : Bool) (allSent : Bool) (sm : Bool) : Statement (.cfHsErr ph allSent sm) := by
  refine ⟨rfl, ?_⟩
  revert ph allSent sm
  decide
theorem cfNetIllegal1 (ph : Bool) (allSent : Bool) (sm : Bool) : Statement (.cfNetIllegal1 ph allSent sm) := by
  refine ⟨rfl, ?_⟩
  revert ph allSent sm
  decide
theorem cfNetIllegal2 (allSent : Bool) (sm : Bool) : Statement (.cfNetIllegal2 allSent sm) := by
  refine ⟨rfl, ?_⟩
  revert allSent sm
  decide
theorem cfSendByte : Statement .cfSendByte := ⟨rfl, rfl⟩
theorem cfSendSent : Statement .cfSendSent := ⟨rfl, rfl⟩
theorem cfRecvByte (allSent : Bool) : Statement (.cfRecvByte allSent) := by
  refine ⟨rfl, ?_⟩
  revert allSent
  decide
theorem cfRecvTerm (allSent : Bool) : Statement (.cfRecvTerm allSent) := by
  refine ⟨rfl, ?_⟩
  revert allSent
  decide
theorem cfRecvEof (allSent : Bool) (sm : Bool) : Statement (.cfRecvEof allSent sm) := by
  refine ⟨rfl, ?_⟩
  revert allSent sm
  decide
theorem cfRecvErr (allSent : Bool) (sm : Bool) : Statement (.cfRecvErr allSent sm) := by
  refine ⟨rfl, ?_⟩
  revert allSent sm
  decide
theorem cfDiscard1 (ph : Bool) (allSent : Bool) (x : BitVec 3) : Statement (.cfDiscard1 ph allSent x) := by
  refine ⟨rfl, ?_⟩
  revert ph allSent x
  decide
theorem cfDiscard2 (ph : Bool) (allSent : Bool) (x : BitVec 3) : Statement (.cfDiscard2 ph allSent x) := by
  refine ⟨rfl, ?_⟩
  revert ph allSent x
  decide
theorem cfDiscard3 (ph : Bool) (allSent : Bool) (x : BitVec 3) : Statement (.cfDiscard3 ph allSent x) := by
  refine ⟨rfl, ?_⟩
  revert ph allSent x
  decide
theorem symA : Statement .symA := ⟨rfl, rfl⟩
theorem symB : Statement .symB := ⟨rfl, rfl⟩
theorem symC : Statement .symC := ⟨rfl, rfl⟩
theorem symD : Statement .symD := ⟨rfl, rfl⟩
theorem symE : Statement .symE := ⟨rfl, rfl⟩
theorem symF : Statement .symF := ⟨rfl, rfl⟩
theorem symG : Statement .symG := ⟨rfl, rfl⟩
theorem symH : Statement .symH := ⟨rfl, rfl⟩
theorem symI : Statement .symI := ⟨rfl, rfl⟩
theorem symJ : Statement .symJ := ⟨rfl, rfl⟩
theorem symK : Statement .symK := ⟨rfl, rfl⟩
theorem symL : Statement .symL := ⟨rfl, rfl⟩
theorem symM : Statement .symM := ⟨rfl, rfl⟩
theorem symN : Statement .symN := ⟨rfl, rfl⟩
theorem symO : Statement .symO := ⟨rfl, rfl⟩
theorem symP : Statement .symP := ⟨rfl, rfl⟩
theorem symQ : Statement .symQ := ⟨rfl, rfl⟩
theorem symR : Statement .symR := ⟨rfl, rfl⟩
theorem symS : Statement .symS := ⟨rfl, rfl⟩
theorem symT : Statement .symT := ⟨rfl, rfl⟩
theorem symU : Statement .symU := ⟨rfl, rfl⟩
theorem symV : Statement .symV := ⟨rfl, rfl⟩
theorem symW : Statement .symW := ⟨rfl, rfl⟩
theorem symX : Statement .symX := ⟨rfl, rfl⟩
theorem symY : Statement .symY := ⟨rfl, rfl⟩
theorem symZ : Statement .symZ := ⟨rfl, rfl⟩
theorem symSpace : Statement .symSpace := ⟨rfl, rfl⟩
theorem sentEncService : Statement .sentEncService := ⟨rfl, rfl⟩
theorem sentDecService : Statement .sentDecService := ⟨rfl, rfl⟩
theorem markByte : Statement .markByte := ⟨rfl, rfl⟩
theorem byteInvalid (b : Byte) : Statement (.byteInvalid b) :=
  ⟨rfl, by simp [row]⟩
theorem xformEnc : Statement .xformEnc := ⟨rfl, rfl⟩
theorem xformDec : Statement .xformDec := ⟨rfl, rfl⟩
theorem polSkip : Statement .polSkip := ⟨rfl, rfl⟩
theorem polMark : Statement .polMark := ⟨rfl, rfl⟩
theorem polAbort : Statement .polAbort := ⟨rfl, rfl⟩
theorem polIllegal : Statement .polIllegal := ⟨rfl, rfl⟩

end TableRow

end Sys2Proof.Laws
end

