-- ==== Sys2Proof/Laws/Runs.lean ====
section
/-! SUPPORT. A run of one move, step by step. -/

namespace Sys2Proof.Machine

theorem runMove_zero (m : Move) (s : State) : runMove 0 m s = .next { s with script := [] } := rfl

/-- A run of `k + 1` moves is the first move and a run of the others. -/
theorem runMove_succ (k : Nat) (m : Move) (s : State) :
    runMove (k + 1) m s =
      match doMove m { s with script := List.replicate k m } with
      | .next t => run k t
      | .fault r => .fault r
      | .refused r => .refused r := by
  have h : step { s with script := List.replicate (k + 1) m } =
      doMove m { s with script := List.replicate k m } := by
    rw [step_cons _ m (List.replicate k m) (by simp [List.replicate_succ])]
  simp only [runMove, run, h]
  all_goals (cases doMove m { s with script := List.replicate k m } <;> rfl)

/-- A run from a state whose script is already the moves of a run of `m`. -/
theorem run_of_script {k : Nat} {m : Move} {s : State} (h : s.script = List.replicate k m) :
    run k s = runMove k m s := by
  simp only [runMove, ← h]

end Sys2Proof.Machine
end

