-- ==== Sys2Proof/Tests/Slice0.lean ====
section
/-! SUPPORT. The model's own tests. Expected values are the spec's: the encodings of R125, R130, R132 and
R133, L1.3, P6 and the vectors V1 to V9 of 95_test_vectors.md, and R50 to R53. The `witness_` theorems each show a
concrete state and operands that meet the hypotheses of the statement they name. -/

namespace Sys2Proof.Tests

open Sys2Proof Sys2Proof.Machine

/-! ### Well-formedness: its one check, and a term it refuses -/

theorem test_wellFormed_refuses_named_byte : (Instr.byteInvalid 0x41).wellFormed = false := by decide
theorem test_wellFormed_refuses_mark_byte : (Instr.byteInvalid 0x3F).wellFormed = false := by decide
theorem test_wellFormed_accepts_other_byte : (Instr.byteInvalid 0x61).wellFormed = true := by decide

/-! ### Decoding: one word a constructor, written out from the tables of the spec (a free bit is 1, 0, 1
… from the left) -/

theorem test_decode_se :
    decode (.seDv 0b001001) = .ok (.seHsOk true) ∧
    decode (.seDv 0b001000) = .ok (.seHsBad true) ∧
    decode (.seDv 0b001010) = .ok (.seHsEof true false) ∧
    decode (.seDv 0b001100) = .ok (.seHsErr true false) ∧
    decode (.seDv 0b010111) = .ok (.seIllegal true false true) ∧
    decode (.seDv 0b010000) = .ok .seData ∧
    decode (.seDv 0b010001) = .ok .seTerm ∧
    decode (.seDv 0b011001) = .ok (.seKey true) ∧
    decode (.seDv 0b011010) = .ok (.seEof true false) ∧
    decode (.seDv 0b011100) = .ok (.seIoerr true false) ∧
    decode (.seDv 0b101010) = .ok (.seDiscard true 0b01 false) ∧
    decode (.seDv 0b111010) = .ok (.seReservedState true 0b01 false) := by decide

theorem test_decode_cf_1 :
    decode (.cfDv 0b0100010011) = .ok (.cfStartOk true false) ∧
    decode (.cfDv 0b0100010010) = .ok (.cfStartKeylen true false) ∧
    decode (.cfDv 0b0100010001) = .ok (.cfCmdIllegal1 true false true) ∧
    decode (.cfDv 0b0100010101) = .ok (.cfCmdIllegal2 true false true) ∧
    decode (.cfDv 0b0100010111) = .ok (.cfCmdIllegal3 true false true) ∧
    decode (.cfDv 0b1000110001) = .ok (.cfHsOk true false) ∧
    decode (.cfDv 0b1000110000) = .ok (.cfHsBad true false) ∧
    decode (.cfDv 0b1000110011) = .ok (.cfHsEof true false true) ∧
    decode (.cfDv 0b1000110101) = .ok (.cfHsErr true false true) ∧
    decode (.cfDv 0b1000110111) = .ok (.cfNetIllegal1 true false true) ∧
    decode (.cfDv 0b1001011110) = .ok (.cfNetIllegal2 true false) ∧
    decode (.cfDv 0b0001000001) = .ok .cfSendByte := by decide

theorem test_decode_cf_2 :
    decode (.cfDv 0b0001000000) = .ok .cfSendSent ∧
    decode (.cfDv 0b1001011000) = .ok (.cfRecvByte true) ∧
    decode (.cfDv 0b1001011001) = .ok (.cfRecvTerm true) ∧
    decode (.cfDv 0b1001011010) = .ok (.cfRecvEof true false) ∧
    decode (.cfDv 0b1001011100) = .ok (.cfRecvErr true false) ∧
    decode (.cfDv 0b1000010101) = .ok (.cfDiscard1 true false 0b101) ∧
    decode (.cfDv 0b1001110101) = .ok (.cfDiscard2 true false 0b101) ∧
    decode (.cfDv 0b1010010101) = .ok (.cfDiscard3 true false 0b101) := by decide

theorem test_decode_byte_1 :
    decode (.byte 0b01000001) = .ok .symA ∧
    decode (.byte 0b01000010) = .ok .symB ∧
    decode (.byte 0b01000011) = .ok .symC ∧
    decode (.byte 0b01000100) = .ok .symD ∧
    decode (.byte 0b01000101) = .ok .symE ∧
    decode (.byte 0b01000110) = .ok .symF ∧
    decode (.byte 0b01000111) = .ok .symG ∧
    decode (.byte 0b01001000) = .ok .symH ∧
    decode (.byte 0b01001001) = .ok .symI ∧
    decode (.byte 0b01001010) = .ok .symJ ∧
    decode (.byte 0b01001011) = .ok .symK ∧
    decode (.byte 0b01001100) = .ok .symL := by decide

theorem test_decode_byte_2 :
    decode (.byte 0b01001101) = .ok .symM ∧
    decode (.byte 0b01001110) = .ok .symN ∧
    decode (.byte 0b01001111) = .ok .symO ∧
    decode (.byte 0b01010000) = .ok .symP ∧
    decode (.byte 0b01010001) = .ok .symQ ∧
    decode (.byte 0b01010010) = .ok .symR ∧
    decode (.byte 0b01010011) = .ok .symS ∧
    decode (.byte 0b01010100) = .ok .symT ∧
    decode (.byte 0b01010101) = .ok .symU ∧
    decode (.byte 0b01010110) = .ok .symV ∧
    decode (.byte 0b01010111) = .ok .symW ∧
    decode (.byte 0b01011000) = .ok .symX := by decide

theorem test_decode_byte_3 :
    decode (.byte 0b01011001) = .ok .symY ∧
    decode (.byte 0b01011010) = .ok .symZ ∧
    decode (.byte 0b00100000) = .ok .symSpace ∧
    decode (.byte 0b00100100) = .ok .sentEncService ∧
    decode (.byte 0b01000000) = .ok .sentDecService ∧
    decode (.byte 0b00111111) = .ok .markByte ∧
    decode (.byte 0b01100001) = .ok (.byteInvalid 0x61) := by decide

theorem test_decode_dir :
    decode (.cfgDir 0b0) = .ok .xformEnc ∧
    decode (.cfgDir 0b1) = .ok .xformDec := by decide

theorem test_decode_pol :
    decode (.cfgPol 0b00) = .ok .polSkip ∧
    decode (.cfgPol 0b01) = .ok .polMark ∧
    decode (.cfgPol 0b10) = .ok .polAbort ∧
    decode (.cfgPol 0b11) = .ok .polIllegal := by decide
/-- What R132 says of the vectors its table does not list. -/
theorem test_decode_cf_rejected :
    decode (.cfDv 0b0101000011) = .error .commandOutsideIdle ∧
    decode (.cfDv 0b1001000000) = .error .netWordInSendPhase ∧
    decode (.cfDv 0b0000000000) = .error .internalOutsideSendPhase ∧
    decode (.cfDv 0b0001001000) = .error .allSentInSendPhase ∧
    decode (.cfDv 0b1100000000) = .error .srcReserved ∧
    decode (.cfDv 0b1010100000) = .error .cstReserved := by decide

/-- A word of the table by its number of bits in whole bytes. -/
theorem test_decodeTableWord :
    decodeTableWord 8 0b000001 = some (.seHsOk false) ∧ decodeTableWord 8 0x41 = some .symA ∧
    decodeTableWord 16 0b0001000001 = some .cfSendByte ∧ decodeTableWord 16 0b0101000011 = none ∧
    decodeTableWord 1 1 = some .xformDec ∧ decodeTableWord 2 3 = some .polIllegal := by decide

/-! ### Small states -/

/-- SE in a state, with these words waiting; everything else as after reset. -/
def seIn (st : SeSt) (ws : List NetWord) : State :=
  { State.reset with se := { SE.afterReset with st := st, rx := ws } }

/-- SE ACTIVE with a carried byte. -/
def seCarrying (cb : Byte) (pol : Policy) (ws : List NetWord) : State :=
  { State.reset with
    se := { SE.afterReset with st := .active, cv := true, cb := cb, pol := pol, rx := ws } }

/-- SE CLOSED, terminated by its sentinel. -/
def seTerminated (ws : List NetWord) : State :=
  { State.reset with
    se := { SE.afterReset with st := .closed, ts := true, cause := .term, rx := ws } }

/-- CF in a state, with these words waiting. -/
def cfIn (cst : CfSt) (ph allSent : Bool) (ws : List NetWord) : State :=
  { State.reset with
    cf := { CF.afterReset with cst := cst, ph := ph, allSent := allSent, nrx := ws } }

/-- CF in IDLE, with one command waiting. -/
def cfCommanded (w : CmdWord) : State :=
  { State.reset with cf := { CF.afterReset with cmd := [w] } }

/-- CF sending the stream of data `"HE"` and key `"XM"`, its stream byte `txp` next. -/
def cfSending (txp : Nat) (cc : BitVec 16) (chunkMax : Nat) : State :=
  { State.reset with
    cf := { CF.afterReset with cst := .stream, n := 2, m := 2, txp := txp, cc := cc }
    data := [(0, 0x48), (1, 0x45)]
    key := [(0, 0x58), (1, 0x4D)]
    params := { Params.reference with chunkMax := chunkMax } }

/-- What an outcome shows of SE: `SE_STATUS`, `SE.tx` and `SE.ev`. -/
def seShows : Host.Outcome State Fault Refusal →
    Option (BitVec 32 × List (BitVec 11) × List (BitVec 8))
  | .next t => some (t.se.statusWord, t.se.tx.map NetWord.bits, t.se.ev.map Event.bits)
  | _ => none

/-- What an outcome shows of CF: `CF_STATUS`, `CF.ntx`, `CF.res` and `CF.ev`. -/
def cfShows : Host.Outcome State Fault Refusal →
    Option (BitVec 32 × List (BitVec 11) × List (BitVec 10) × List (BitVec 8))
  | .next t => some (t.cf.statusWord, t.cf.ntx.map NetWord.bits, t.cf.res.map ResWord.bits,
      t.cf.ev.map Event.bits)
  | _ => none

/-! ### The combinational units (V1, V2, V3) -/

/-- V1. -/
theorem test_sym2val : sym2val 0x41 = some 0 ∧ sym2val 0x5A = some 25 ∧ sym2val 0x20 = some 26 ∧
    sym2val 0x40 = none ∧ sym2val 0x5B = none ∧ sym2val 0x1F = none ∧ sym2val 0x21 = none := by decide

/-- V1. -/
theorem test_val2sym : val2sym 0 = 0x41 ∧ val2sym 25 = 0x5A ∧ val2sym 26 = 0x20 := by decide

/-- V2. -/
theorem test_xform_enc : xform 7 23 .enc = 3 ∧ xform 25 1 .enc = 26 ∧ xform 26 26 .enc = 25 ∧
    xform 13 14 .enc = 0 := by decide

/-- V2. -/
theorem test_xform_dec : xform 3 23 .dec = 7 ∧ xform 0 1 .dec = 26 ∧ xform 0 26 .dec = 1 ∧
    xform 26 26 .dec = 0 := by decide

/-- V3. -/
theorem test_pairop : pairop .enc .skip 0x48 0x58 = .out 0x44 ∧
    pairop .enc .skip 0x68 0x41 = .nothing ∧ pairop .enc .mark 0x68 0x41 = .out 0x3F ∧
    pairop .enc .abort 0x68 0x41 = .abort ∧ pairop .enc .mark 0x48 0x24 = .out 0x3F := by decide

/-! ### SE's operations (V3 to V6, R50) -/

theorem test_seHsOk : seShows (doMove .se (seIn .awaitHs [byteWord true 0x24])) =
    some (0x00000001, [0x024], [0x10]) := by decide
theorem test_seHsBad : seShows (doMove .se (seIn .awaitHs [byteWord true 0x41])) =
    some (0x00000202, [0x600], [0x22, 0x32]) := by decide
theorem test_seHsEof : seShows (doMove .se (seIn .awaitHs [eofWord])) =
    some (0x00000302, [0x600], [0x23, 0x33]) := by decide
theorem test_seHsErr : seShows (doMove .se (seIn .awaitHs [ioerrWord])) =
    some (0x00000502, [0x600], [0x25, 0x35]) := by decide
theorem test_seIllegal_handshake : seShows (doMove .se (seIn .awaitHs [rsvdWord])) =
    some (0x00000802, [0x600], [0x28, 0x38]) := by decide
theorem test_seIllegal_active : seShows (doMove .se (seCarrying 0x48 .skip [rsvdWord])) =
    some (0x00000802, [0x600], [0x40, 0x38]) := by decide
theorem test_seData : seShows (doMove .se (seIn .active [byteWord true 0x48])) =
    some (0x00480005, [], []) := by decide
theorem test_seTerm : seShows (doMove .se (seIn .active [byteWord true 0x24])) =
    some (0x0000010A, [0x024, 0x600], [0x31]) := by decide
theorem test_seKey : seShows (doMove .se (seCarrying 0x48 .skip [byteWord true 0x58])) =
    some (0x00000001, [0x044], []) := by decide
theorem test_seKey_invalid :
    seShows (doMove .se (seCarrying 0x48 .skip [byteWord false 0x24])) =
      some (0x00000001, [], [0x50]) ∧
    seShows (doMove .se (seCarrying 0x68 .mark [byteWord true 0x41])) =
      some (0x00000001, [0x03F], [0x51]) ∧
    seShows (doMove .se (seCarrying 0x68 .abort [byteWord true 0x41])) =
      some (0x00000602, [0x600], [0x52, 0x36]) := by decide
theorem test_seEof : seShows (doMove .se (seCarrying 0x48 .skip [eofWord])) =
    some (0x00000402, [0x600], [0x40, 0x34]) := by decide
theorem test_seIoerr : seShows (doMove .se (seCarrying 0x45 .skip [ioerrWord])) =
    some (0x00000502, [0x600], [0x40, 0x35]) := by decide
theorem test_seDiscard : seShows (doMove .se (seTerminated [rsvdWord])) =
    some (0x0000010A, [], []) := by decide

/-! ### CF's operations (V5, V7, R52) -/

theorem test_cfStartOk : cfShows (doMove .cfCommand (cfCommanded ⟨0b01, 3, 5⟩)) =
    some (0x00000001, [0x124], [], []) := by decide
theorem test_cfStartKeylen : cfShows (doMove .cfCommand (cfCommanded ⟨0b01, 11, 10⟩)) =
    some (0x00000704, [], [0x207], [0x37]) := by decide
theorem test_cfCmdIllegal1 : cfShows (doMove .cfCommand (cfCommanded ⟨0b00, 1, 1⟩)) =
    some (0x00000804, [], [0x208], [0x38]) := by decide
theorem test_cfCmdIllegal2 : cfShows (doMove .cfCommand (cfCommanded ⟨0b10, 0, 0⟩)) =
    some (0x00000804, [], [0x208], [0x38]) := by decide
theorem test_cfCmdIllegal3 : cfShows (doMove .cfCommand (cfCommanded ⟨0b11, 0, 0⟩)) =
    some (0x00000804, [], [0x208], [0x38]) := by decide
theorem test_cfHsOk : cfShows (doMove .cfNet (cfIn .hsWait false false [byteWord true 0x24])) =
    some (0x00000002, [], [], [0x10]) := by decide
theorem test_cfHsBad : cfShows (doMove .cfNet (cfIn .hsWait false false [byteWord false 0x40])) =
    some (0x00000204, [0x600], [0x202], [0x22, 0x32]) := by decide
theorem test_cfHsEof : cfShows (doMove .cfNet (cfIn .hsWait false false [eofWord])) =
    some (0x00000304, [0x600], [0x203], [0x23, 0x33]) := by decide
theorem test_cfHsErr : cfShows (doMove .cfNet (cfIn .hsWait false false [ioerrWord])) =
    some (0x00000504, [0x600], [0x205], [0x25, 0x35]) := by decide
theorem test_cfNetIllegal1 : cfShows (doMove .cfNet (cfIn .hsWait false false [rsvdWord])) =
    some (0x00000804, [0x600], [0x208], [0x28, 0x38]) := by decide
theorem test_cfNetIllegal2 : cfShows (doMove .cfNet (cfIn .stream true false [rsvdWord])) =
    some (0x0000080C, [0x600], [0x208], [0x38]) := by decide
/-- R244, R245: data `"HE"`, key `"XM"`, chunks of 3, of which the third byte ends the first. -/
theorem test_cfSendByte_inside_chunk :
    cfShows (doMove .cfInternal (cfSending 1 1 3)) = some (0x00000002, [0x058], [], []) := by decide
theorem test_cfSendByte_ends_chunk :
    cfShows (doMove .cfInternal (cfSending 2 2 3)) = some (0x0000000A, [0x145], [], []) := by decide
theorem test_cfSendSent : cfShows (doMove .cfInternal (cfSending 4 0 3)) =
    some (0x0000001A, [0x124], [], []) := by decide
theorem test_cfRecvByte :
    cfShows (doMove .cfNet (cfIn .stream true false [byteWord true 0x51])) =
      some (0x00000002, [], [0x051], []) := by decide
theorem test_cfRecvByte_all_sent :
    cfShows (doMove .cfNet (cfIn .stream true true [byteWord true 0x4E])) =
      some (0x0000001A, [], [0x04E], []) := by decide
theorem test_cfRecvTerm : cfShows (doMove .cfNet (cfIn .stream true true [byteWord false 0x24])) =
    some (0x0000011B, [0x600], [0x100], [0x31]) := by decide
theorem test_cfRecvEof : cfShows (doMove .cfNet (cfIn .stream true false [eofWord])) =
    some (0x0000040C, [0x600], [0x204], [0x34]) := by decide
theorem test_cfRecvErr : cfShows (doMove .cfNet (cfIn .stream true false [ioerrWord])) =
    some (0x0000050C, [0x600], [0x205], [0x35]) := by decide
theorem test_cfDiscard1 : cfShows (doMove .cfNet (cfIn .idle false false [byteWord false 0x41])) =
    some (0x00000000, [], [], []) := by decide
theorem test_cfDiscard2 : cfShows (doMove .cfNet (cfIn .done true true [eofWord])) =
    some (0x0000001B, [], [], []) := by decide

/-! ### Resets (V6, V9) -/

theorem test_reset_se_illegal :
    seShows (.next (resetSe { State.reset with sePorts := ⟨0x3F, .enc, .mark⟩ })) =
      some (0x00000902, [0x600], [0x39]) ∧
    (SE.resetStep ⟨0x3F, .enc, .mark⟩).cfgWord = 0x023F ∧
    (SE.resetStep ⟨0x24, .enc, .illegal⟩).cfgWord = 0x0624 ∧
    (SE.resetStep ⟨0x41, .enc, .skip⟩).cfgWord = 0x0041 := by decide
theorem test_reset_se_legal :
    seShows (.next (resetSe { State.reset with sePorts := ⟨0x3F, .enc, .skip⟩ })) =
      some (0x00000000, [], []) ∧
    (SE.resetStep ⟨0x40, .dec, .mark⟩).cfgWord = 0x0B40 ∧
    (SE.resetStep ⟨0x00, .dec, .abort⟩).cfgWord = 0x0D00 := by decide
theorem test_reset_cf :
    cfShows (.next (resetCf { State.reset with cfPorts := ⟨0x41⟩ })) =
      some (0x00000904, [], [0x209], [0x39]) ∧
    (CF.resetStep ⟨0x41⟩).cfgWord Params.reference = 0x03E80041 ∧
    (CF.resetStep ⟨0x24⟩).cfgWord Params.reference = 0x03E80124 := by decide

/-! ### The host (R98, R329) -/

/-- A state whose transport, client to server, holds `buf`, with `ntx` waiting to be taken. -/
def carrying (buf : List Byte) (ntx : List NetWord) (l : LaneState) : State :=
  { State.reset with
    cf := { CF.afterReset with ntx := ntx }
    link := { c2s := { l with buf := buf }, s2c := LaneState.empty } }

/-- R329: CF reset in a session, and SE's EOF delivered. -/
theorem test_reset_ends_connection :
    (deliverEof .c2s (resetCf { cfIn .stream true false [] with
      se := { SE.afterReset with st := .active } })).se.rx = [eofWord] := by decide
/-- R297, R313: a transport connects two units reset since the last one, and no others. -/
theorem test_connect :
    (connect (resetCf (resetSe (seTerminated [])))).link = State.reset.link ∧
      connect (resetCf (seTerminated [])) = resetCf (seTerminated []) ∧
      connect (deliverErr .c2s State.reset) = deliverErr .c2s State.reset := by decide
/-- P1, rows 4 and 5: SE gets its data byte without LAST before CF has written the next. -/
theorem test_open_read_to_server :
    (deliver .c2s false (carrying [0x48] [] .empty)).se.rx = [byteWord false 0x48] := by decide
/-- R98: a test host's move is none of the host's. -/
theorem test_bench :
    benchPut .c2s eofWord State.reset = State.reset ∧
      (benchPut .c2s eofWord { State.reset with bench := true }).se.rx = [eofWord] := by decide

/-! ### Fetching a word of the table -/

theorem test_withFetchWord_se :
    step (State.reset.withFetchWord 8 0b011000) = exec (.seKey false)
      { State.reset.withFetchWord 8 0b011000 with script := [] } := rfl
theorem test_withFetchWord_cf :
    step (State.reset.withFetchWord 16 0b0001000001) = exec .cfSendByte
      { State.reset.withFetchWord 16 0b0001000001 with script := [] } := rfl

/-! ### Witnesses -/

/-- R160's three clauses at the ends of their ranges. -/
theorem witness_SymbolValues :
    (0x41 ≤ (0x5A : Byte).toNat ∧ (0x5A : Byte).toNat ≤ 0x5A) ∧
    ¬(0x41 ≤ (0x5B : Byte).toNat ∧ (0x5B : Byte).toNat ≤ 0x5A) ∧ (0x5B : Byte) ≠ 0x20 := by decide
theorem witness_AlphabetRoundTrip : sym2val 0x20 = some 26 := by decide
theorem witness_TransformKeyBijective : xform 26 0 .enc = 26 := by decide
theorem witness_ByteRowsAnswer :
    (Instr.symZ).wellFormed = true ∧ encode .symZ = .byte 0x5A ∧
    (Instr.byteInvalid 0x5B).wellFormed = true ∧ encode (.byteInvalid 0x5B) = .byte 0x5B ∧
    (sym2val 0x5A).isSome = true ∧ sym2val 0x24 = none ∧ sym2val 0x5B = none ∧ (0x5B : Byte) ≠ 0x24 := by
  decide
theorem witness_PairOperation :
    sym2val 0x5A = some 25 ∧ sym2val 0x20 = some 26 ∧ sym2val 0x5B = none := by decide
theorem witness_IllegalPolicyCloses :
    (State.reset.se.st ≠ .closed ∧ State.reset.se.tx.length + 1 ≤ State.reset.params.obuf) ∧
    (seTerminated []).se.st = .closed := by decide

/-- One channel word of `SE.tx` taken, so that the room of R89 is just enough for one more. -/
def oneRoom (s : State) : State := { s with se := { s.se with tx := [byteWord false 0x44] } }

theorem witness_HandshakeAccepted :
    let s := oneRoom (seIn .awaitHs [byteWord true 0x24])
    SeHas s (byteWord true 0x24) [] 1 ∧ s.se.st = .awaitHs ∧ (byteWord true 0x24).kind = .byte ∧
      (byteWord true 0x24).data = s.se.sent := by decide
theorem witness_HandshakeRejected :
    (let s := oneRoom (seIn .awaitHs [byteWord true 0x25])
     SeHas s (byteWord true 0x25) [] 1 ∧ s.se.st = .awaitHs ∧ (byteWord true 0x25).data ≠ s.se.sent) ∧
    (let s := oneRoom (seIn .awaitHs [eofWord])
     SeHas s eofWord [] 1 ∧ s.se.st = .awaitHs ∧ eofWord.kind = .eof) ∧
    (let s := oneRoom (seIn .awaitHs [ioerrWord])
     SeHas s ioerrWord [] 1 ∧ s.se.st = .awaitHs ∧ ioerrWord.kind = .ioerr) := by decide
theorem witness_DataByteCarried :
    let s := seIn .active [byteWord false 0x25]
    SeHas s (byteWord false 0x25) [] 0 ∧ s.se.st = .active ∧ s.se.cv = false ∧
      (byteWord false 0x25).data ≠ s.se.sent := by decide
theorem witness_SentinelTerminates :
    let s := seIn .active [byteWord false 0x24]
    SeHas s (byteWord false 0x24) [] 2 ∧ s.se.st = .active ∧ s.se.cv = false ∧
      (byteWord false 0x24).data = s.se.sent := by decide
theorem witness_KeyByteCompletesPair :
    (let s := oneRoom (seCarrying 0x5A .skip [byteWord false 0x20])
     SeHas s (byteWord false 0x20) [] 1 ∧ s.se.st = .active ∧ s.se.cv = true ∧
       sym2val s.se.cb = some 25 ∧ sym2val (byteWord false 0x20).data = some 26) ∧
    (let s := seCarrying 0x5B .skip [byteWord false 0x24]
     SeHas s (byteWord false 0x24) [] 0 ∧ sym2val s.se.cb = none ∧ s.se.pol = .skip) ∧
    (let s := oneRoom (seCarrying 0x5A .mark [byteWord false 0x24])
     SeHas s (byteWord false 0x24) [] 1 ∧ sym2val (byteWord false 0x24).data = none ∧
       s.se.pol = .mark) ∧
    (let s := oneRoom (seCarrying 0x5B .abort [byteWord false 0x41])
     SeHas s (byteWord false 0x41) [] 1 ∧ sym2val s.se.cb = none ∧ s.se.pol = .abort) := by decide
theorem witness_StreamEndsEarly :
    (let s := oneRoom (seCarrying 0x48 .skip [eofWord])
     SeHas s eofWord [] 1 ∧ s.se.st = .active ∧ eofWord.kind = .eof) ∧
    (let s := oneRoom (seIn .active [ioerrWord])
     SeHas s ioerrWord [] 1 ∧ s.se.st = .active ∧ ioerrWord.kind = .ioerr) := by decide
theorem witness_IllegalWordCloses :
    (let s := oneRoom (seIn .awaitHs [rsvdWord])
     SeHas s rsvdWord [] 1 ∧ rsvdWord.kind = .close ∧ s.se.st = .awaitHs) ∧
    (let s := oneRoom (seCarrying 0x48 .skip [rsvdWord])
     SeHas s rsvdWord [] 1 ∧ s.se.st = .active) := by decide
theorem witness_ClosedDiscards :
    let s := seTerminated [rsvdWord]
    SeHas s rsvdWord [] 0 ∧ s.se.st = .closed := by decide
theorem witness_ReservedStateRefused : (seIn .reserved []).se.st = .reserved := by decide
theorem witness_StartAccepted :
    let w : CmdWord := ⟨0b01, 2 ^ 32 - 1, 2 ^ 32 - 1⟩
    let s := cfCommanded w
    CfHasCmd s w [] 1 0 ∧ s.cf.cst = .idle ∧ w.op = 0b01 ∧ w.n ≤ w.m ∧
      w.n < 2 ^ s.params.lenW ∧ w.m < 2 ^ s.params.lenW := by decide
theorem witness_StartRefused :
    (let w : CmdWord := ⟨0b01, 1, 0⟩
     let s := cfCommanded w
     CfHasCmd s w [] 0 1 ∧ s.cf.cst = .idle ∧ w.op = 0b01 ∧ w.m < w.n) ∧
    (let w : CmdWord := ⟨0b11, 1, 0⟩
     let s := cfCommanded w
     CfHasCmd s w [] 0 1 ∧ s.cf.cst = .idle ∧ w.op = 0b11) ∧
    (let w : CmdWord := ⟨0b00, 0, 0⟩
     CfHasCmd (cfCommanded w) w [] 0 1 ∧ w.op = 0b00) ∧
    (let w : CmdWord := ⟨0b10, 0, 0⟩
     CfHasCmd (cfCommanded w) w [] 0 1 ∧ w.op = 0b10) := by decide
theorem witness_EchoAccepted :
    let s := cfIn .hsWait false false [byteWord true 0x24]
    CfHasNet s (byteWord true 0x24) [] 0 0 ∧ s.cf.cst = .hsWait ∧
      (byteWord true 0x24).data = s.cf.sent := by decide
theorem witness_EchoRejected :
    (let s := cfIn .hsWait false false [byteWord true 0x25]
     CfHasNet s (byteWord true 0x25) [] 1 1 ∧ s.cf.cst = .hsWait ∧
       (byteWord true 0x25).data ≠ s.cf.sent) ∧
    (let s := cfIn .hsWait false false [eofWord]
     CfHasNet s eofWord [] 1 1 ∧ s.cf.cst = .hsWait ∧ eofWord.kind = .eof) ∧
    (let s := cfIn .hsWait false false [ioerrWord]
     CfHasNet s ioerrWord [] 1 1 ∧ s.cf.cst = .hsWait ∧ ioerrWord.kind = .ioerr) ∧
    (let s := cfIn .hsWait false false [rsvdWord]
     CfHasNet s rsvdWord [] 1 1 ∧ s.cf.cst = .hsWait ∧ rsvdWord.kind = .close) := by decide
/-- The last stream byte, in a chunk that it also fills. -/
theorem witness_StreamByteSent :
    let s := cfSending 3 2 3
    CfRoom s 1 0 ∧ s.cf.cst = .stream ∧ s.cf.ph = false ∧ s.cf.allSent = false ∧
      s.cf.txp < 2 * s.cf.n ∧ s.cf.n < 2 ^ s.params.lenW ∧ s.params.Legal ∧
      s.cf.cc.toNat < s.params.chunkMax := by decide
/-- R57, R81: the key byte of position 1 is asked for on the source read port. -/
theorem test_sourceRequest :
    sourceRequest (cfSending 3 2 3) = some { sel := 0b1, addr := 1 } ∧
      sourceAnswer (cfSending 3 2 3) = some 0x4D := by decide
theorem witness_SentinelSentOnce :
    let s := cfSending 4 0 3
    CfRoom s 1 0 ∧ s.cf.cst = .stream ∧ s.cf.ph = false ∧ s.cf.allSent = false ∧
      s.cf.txp = 2 * s.cf.n ∧ (cfIn .stream true true []).cf.allSent = true := by decide
theorem witness_ResultByteReceived :
    let s := cfIn .stream true false [byteWord true 0x44]
    CfHasNet s (byteWord true 0x44) [] 0 1 ∧ s.cf.cst = .stream ∧ s.cf.ph = true ∧
      (byteWord true 0x44).data ≠ s.cf.sent := by decide
theorem witness_SentinelCompletesSession :
    let s := cfIn .stream true true [byteWord false 0x24]
    CfHasNet s (byteWord false 0x24) [] 1 1 ∧ s.cf.cst = .stream ∧ s.cf.ph = true ∧
      (byteWord false 0x24).data = s.cf.sent := by decide
theorem witness_ReceivingFails :
    (let s := cfIn .stream true false [eofWord]
     CfHasNet s eofWord [] 1 1 ∧ s.cf.cst = .stream ∧ s.cf.ph = true ∧ eofWord.kind = .eof) ∧
    (let s := cfIn .stream true true [ioerrWord]
     CfHasNet s ioerrWord [] 1 1 ∧ s.cf.ph = true ∧ ioerrWord.kind = .ioerr) ∧
    (let s := cfIn .stream true true [rsvdWord]
     CfHasNet s rsvdWord [] 1 1 ∧ s.cf.ph = true ∧ rsvdWord.kind = .close) := by decide
theorem witness_IdleAndTerminalDiscard :
    CfHasNet (cfIn .idle false false [eofWord]) eofWord [] 0 0 ∧
    CfHasNet (cfIn .done true true [eofWord]) eofWord [] 0 0 ∧
    CfHasNet (cfIn .fail true true [rsvdWord]) rsvdWord [] 0 0 := by decide
theorem witness_ClientHolds :
    ({ cfIn .done true true [] with
        cf := { CF.afterReset with cst := .done, cmd := [⟨0b01, 1, 1⟩] } } : State).cf.cmd =
      [⟨0b01, 1, 1⟩] ∧
    ((cfIn .stream false false [eofWord]).cf.nrx = [eofWord] ∧
      (cfIn .stream false false [eofWord]).cf.ph = false) ∧
    State.reset.cf.nrx = [] ∧ State.reset.cf.cst ≠ .stream := by decide
/-- Ready for a word that needs no room, not ready for one that needs room there is not. -/
theorem witness_ServerTakesWhenReady :
    seRxReady (seTerminated [eofWord]) = true ∧
    (let s : State := { seIn .active [byteWord false 0x24] with
       se := { (seIn .active [byteWord false 0x24]).se with tx := [byteWord false 0x44] } }
     seRxReady s = false ∧ s.se.st ≠ .reserved) := by decide
/-- `CF.ntx` with no room left. -/
def fullNtx (s : State) : State :=
  { s with cf := { s.cf with ntx := List.replicate s.params.obuf (byteWord false 0x41) } }

theorem witness_ClientTakesWhenReady :
    (cfEnabled .cfNet (cfIn .idle false false [eofWord])).isSome = true ∧
    cfEnabled .cfNet (cfIn .stream false false [eofWord]) = none ∧
    (cfEnabled .cfCommand (cfCommanded ⟨0b01, 0, 0⟩)).isSome = true ∧
    cfEnabled .cfCommand { cfCommanded ⟨0b01, 0, 0⟩ with
      cf := { (cfCommanded ⟨0b01, 0, 0⟩).cf with cst := .fail } } = none ∧
    (cfEnabled .cfInternal (cfSending 4 0 3)).isSome = true ∧
    cfEnabled .cfInternal (cfIn .stream true false []) = none ∧
    (fullNtx (cfSending 4 0 3)).params.obuf ≤ (fullNtx (cfSending 4 0 3)).cf.ntx.length ∧
    State.reset.cf.cmd = [] := by decide
theorem witness_ServerReset :
    (sym2val 0x3F = none ∧ Policy.skip ≠ .illegal ∧ ¬(Policy.skip = .mark ∧ (0x3F : Byte) = 0x3F)) ∧
    ¬(sym2val 0x3F = none ∧ Policy.mark ≠ .illegal ∧ ¬(Policy.mark = .mark ∧ (0x3F : Byte) = 0x3F)) := by
  decide
theorem witness_ClientReset : sym2val 0x40 = none ∧ sym2val 0x41 ≠ none := by decide
theorem witness_StatusWords : Params.reference.Legal := by decide
/-- The greatest length; a START in IDLE, a test host's command elsewhere, and a command that is
neither. -/
theorem witness_CommandWordBits :
    2 ^ 32 - 1 < 2 ^ State.reset.params.lenW ∧ State.reset.cf.cst = .idle ∧
      ({ cfIn .done true true [] with bench := true } : State).bench = true ∧
      State.reset.bench = false ∧ ¬((0b01 : BitVec 2) = 0b01 ∧ (cfIn .done true true []).cf.cst = .idle) ∧
      ¬((0b11 : BitVec 2) = 0b01 ∧ State.reset.cf.cst = .idle) := by decide

/-- SE ACTIVE with a carried byte and a word waiting, as a run reaches it, its move scheduled. -/
def midStream : State :=
  { seCarrying 0x48 .skip [byteWord true 0x58] with script := [.se] }

theorem midStream_se_inv : midStream.se.Inv midStream.params := by
  constructor <;> decide
theorem midStream_cf_inv : midStream.cf.Inv midStream.params := by
  constructor <;> (simp [midStream, seCarrying, State.reset, CF.afterReset, CF.terminal]; try decide)
theorem midStream_inv : midStream.Inv :=
  ⟨by decide, midStream_se_inv, midStream_cf_inv,
    fun lane => ⟨by cases lane <;> rintro k ⟨⟩, by cases lane <;> rintro _ k ⟨⟩,
      by cases lane <;> decide⟩, by decide, by decide⟩

theorem witness_ConfigurationLatched :
    (midStream.se.Inv midStream.params ∧ Move.setSePorts ⟨0x41, .dec, .illegal⟩ ≠ .resetSe ∧
      ∃ t, doMove (.setSePorts ⟨0x41, .dec, .illegal⟩) midStream = .next t ∧
        t.sePorts ≠ midStream.sePorts) ∧
    Move.setCfPorts ⟨0x41⟩ ≠ .resetCf ∧
      ∃ t, doMove (.setCfPorts ⟨0x41⟩) midStream = .next t ∧ t.cfPorts ≠ midStream.cfPorts :=
  ⟨⟨midStream_se_inv, by decide, _, rfl, by decide⟩, by decide, _, rfl, by decide⟩
/-- A key byte, a data byte, the two ways out of AWAIT_HS, and CLOSED. -/
theorem witness_ServerTransitions :
    (midStream.se.rx = [byteWord true 0x58] ∧
      ∃ t, doMove .se midStream = .next t ∧ t ≠ midStream ∧ t.se.st = .active) ∧
    (∃ t, doMove .se (seIn .active [byteWord false 0x48]) = .next t ∧
      t ≠ seIn .active [byteWord false 0x48] ∧ t.se.st = .active) ∧
    (∃ t, doMove .se (seIn .awaitHs [byteWord true 0x24]) = .next t ∧
      t ≠ seIn .awaitHs [byteWord true 0x24] ∧ (byteWord true 0x24).data = State.reset.se.sent) ∧
    (∃ t, doMove .se (seIn .awaitHs [eofWord]) = .next t ∧ t ≠ seIn .awaitHs [eofWord]) ∧
    (∃ t, doMove .se (seTerminated [eofWord]) = .next t ∧ t ≠ seTerminated [eofWord]) :=
  ⟨⟨by decide, _, rfl, by decide, by decide⟩, ⟨_, rfl, by decide, by decide⟩,
    ⟨_, rfl, by decide, by decide⟩, ⟨_, rfl, by decide⟩, ⟨_, rfl, by decide⟩⟩
theorem witness_NoReturnFromClose :
    (∃ t, doMove .se (seTerminated [eofWord]) = .next t ∧ t ≠ seTerminated [eofWord]) ∧
      (seTerminated [eofWord]).se.st = .closed ∧ (cfIn .done true true []).cf.terminal = true :=
  ⟨⟨_, rfl, by decide⟩, by decide, by decide⟩
theorem witness_ClientTransitions :
    (∃ t, doMove .cfNet (cfIn .stream true true [byteWord false 0x24]) = .next t ∧
      t.cf.cst = .done) ∧
    (∃ t, doMove .cfInternal (cfSending 0 0 3) = .next t ∧ t ≠ cfSending 0 0 3) ∧
    (∃ t, doMove .cfCommand (cfCommanded ⟨0b01, 0, 0⟩) = .next t ∧ t.cf.cst = .hsWait) :=
  ⟨⟨_, rfl, by decide⟩, ⟨_, rfl, by decide⟩, ⟨_, rfl, by decide⟩⟩
theorem witness_ServerWrites :
    ∃ t, doMove .se (seIn .active [byteWord true 0x24]) = .next t ∧ t.se.tx.length = 2 :=
  ⟨_, rfl, by decide⟩
theorem witness_OperationsKeepToTheirUnit :
    ∃ t, exec .seData (seIn .active [byteWord true 0x48]) = .next t ∧
      encode .seData = .seDv 0b010000 :=
  ⟨_, rfl, by decide⟩
theorem witness_FragmentationInvariance :
    [byteWord true 0x48].map eraseLast = [byteWord false 0x48].map eraseLast := by decide

/-- SE ACTIVE with a stream of one pair and its sentinel waiting, and room for what it writes. -/
def onePair (dir : Dir) (d k : Byte) : State :=
  { State.reset with
    se := { SE.afterReset with
      st := .active, dir := dir
      rx := [byteWord false d, byteWord true k, byteWord true 0x24] }
    params := { Params.reference with obuf := 3 } }

theorem witness_WholeSessionOutput :
    let s := onePair .enc 0x48 0x58
    s.se.st = .active ∧ s.se.cv = false ∧ ([0x48] : List Byte).length ≤ ([0x58] : List Byte).length ∧
      (∀ b ∈ ([0x48] : List Byte), IsSymbol b) ∧ (∀ b ∈ ([0x58] : List Byte), IsSymbol b) ∧
      sym2val s.se.sent = none ∧ (∀ w ∈ s.se.rx, w.kind = .byte) ∧
      s.se.rx.map (fun w => w.data) = interleave [0x48] [0x58] ++ [s.se.sent] ∧
      s.se.tx.length + 1 + 2 ≤ s.params.obuf := by decide
/-- V3's pair H, X and its inverse D, X. -/
theorem witness_SessionRoundTrip :
    (∃ t, runMove 3 .se (onePair .enc 0x48 0x58) = .next t ∧
      t.se.tx = ([0x44] : List Byte).map (byteWord false) ++ [byteWord false 0x24, closeWord]) ∧
    (onePair .dec 0x44 0x58).se.rx.map (fun w => w.data) =
      interleave [0x44] [0x58] ++ [(onePair .dec 0x44 0x58).se.sent] :=
  ⟨⟨_, rfl, by decide⟩, by decide⟩
/-- The shorter last chunk of a stream of four bytes sent in threes. -/
theorem witness_ChunkSent :
    let s := cfSending 3 0 3
    s.cf.cst = .stream ∧ s.cf.ph = false ∧ s.cf.allSent = false ∧ s.cf.cc = 0 ∧
      s.cf.n < 2 ^ s.params.lenW ∧ s.params.Legal ∧ s.cf.txp < 2 * s.cf.n ∧
      1 = min s.params.chunkMax (2 * s.cf.n - s.cf.txp) ∧
      s.cf.ntx.length + 1 ≤ s.params.obuf ∧ s.cf.res.length ≤ s.params.obuf := by decide
theorem witness_PlacedByteIsRead :
    2 ^ State.reset.params.lenW ≤ 2 ^ 32 ∧ 2 ^ 32 - 1 < 2 ^ State.reset.params.lenW ∧
      (cfIn .hsWait false false []).cf.cst = .hsWait ∧
      (let c := { CF.afterReset with cmd := [{ op := opStart, n := 0, m := 0 }] }
       c.cst = .idle ∧ ∃ w ∈ c.cmd, w.op = 0b01) ∧
      State.reset.cf.cst ≠ .hsWait ∧ State.reset.cf.cst ≠ .stream ∧
      ∀ w ∈ State.reset.cf.cmd, w.op ≠ 0b01 := by decide
/-- A START written and not yet taken fixes the buffers (R82, R313). -/
theorem test_place_after_start :
    doMove (.place .data 0 0x48)
        { State.reset with cf :=
          { CF.afterReset with cmd := [{ op := opStart, n := 1, m := 1 }] } } =
      .refused .bufferChangedInSession := rfl
theorem test_splitWords : (splitWords [2, 0, 1] [0x41, 0x42, 0x43]).map (fun w => w.last) =
    [false, true, true] := by decide
/-- The handshake and the pairs "HEL", "XMC" of L1.3 on SE, and the state they leave. -/
def seTrace (third : Byte) : List TraceLine :=
  [.unitSe ⟨0x24, .enc, .skip⟩, .rx (byteWord true 0x24), .outTx (byteWord false 0x24),
    .outEv .se ⟨.hsAccept, 0x0⟩] ++
  rxLines (pairWordsOf [0x48, 0x45, 0x4C] [0x58, 0x4D, 0x43] [6]) ++
  txText [0x44, 0x51, third] ++ [.state [(.st, 0b01), (.cv, 0), (.seSent, 0x24), (.dir, 0)]]

/-- It holds, and with another word at its end it does not. -/
theorem test_seTrace : traceHolds (seTrace 0x4E) State.reset = true ∧
    traceHolds (seTrace 0x4F) State.reset = false := by decide +kernel

/-- The empty session P6 on CF, with the end state P6 gives; and not with another event or count. -/
def cfTrace (event : EvCode) (txp : Nat) : List TraceLine :=
  [.unitCf ⟨0x24⟩ 1000, .buf .data [], .buf .key [], .cmd ⟨opStart, 0, 0⟩,
    .outNtx (byteWord true 0x24), .nrx (byteWord true 0x24), .outEv .cf ⟨event, 0x0⟩,
    .outNtx (byteWord true 0x24), .nrx (byteWord true 0x24), .outRes .done, .outNtx closeWord,
    .outEv .cf ⟨.closed, 0x1⟩, .state [(.cfStatus, 0x11B), (.n, 0), (.m, 0), (.txp, txp), (.cc, 0)]]

theorem test_cfTrace : traceHolds (cfTrace .hsAccept 0) State.reset = true ∧
    traceHolds (cfTrace .hsReject 0) State.reset = false ∧
    traceHolds (cfTrace .hsAccept 1) State.reset = false := by decide +kernel

/-- The lengths of the longest split a string has, and data no longer than the key. -/
theorem witness_TraceMacros :
    ([2, 0, 1] : List Nat).sum ≤ ([0x41, 0x42, 0x43] : List Byte).length ∧
      ([0x48, 0x45] : List Byte).length ≤ ([0x58, 0x4D] : List Byte).length ∧
      1 < ([0x48, 0x45] : List Byte).length := by decide
/-- A BYTE and a CLOSE to take; a byte to deliver with and without LAST, one that must end its read at
`RX_CAP`, and one for which the reader's channel has no room. -/
theorem witness_TransportKeepsTheStream :
    (∃ t, doMove (.carry .c2s) (carrying [] [byteWord true 0x24] .empty) = .next t ∧
      t.link.c2s.buf = [0x24]) ∧
    (let s := carrying [] [byteWord true 0x24] .empty
     s.written .c2s = [byteWord true 0x24] ∧ s.full .c2s = false ∧ (s.lane .c2s).closed = false) ∧
    (let s := carrying [] [closeWord] .empty
     s.written .c2s = [closeWord] ∧ closeWord.kind = .close ∧ s.full .c2s = false) ∧
    (let s := carrying [0x48, 0x58] [] { LaneState.empty with chunkLen := 998 }
     (s.lane .c2s).buf = [0x48, 0x58] ∧ (s.lane .c2s).ended = false ∧ s.readerRoom .c2s = none ∧
       s.params.rxCap = 1000 ∧ (s.lane .c2s).chunkLen + 1 < s.params.rxCap) ∧
    (let s := carrying [0x48, 0x58] [] { LaneState.empty with chunkLen := 999 }
     s.params.rxCap ≤ (s.lane .c2s).chunkLen + 1) ∧
    (let s : State := { seIn .active [byteWord true 0x41] with
       params := { Params.reference with rxRoomC2s := some 1 } }
     s.readerRoom .c2s = some 1 ∧ 1 ≤ (byteData (s.readerChannel .c2s)).length) :=
  ⟨⟨_, rfl, by decide⟩, by decide, by decide, by decide, by decide, by decide⟩

/-- The echo goes to CF with LAST = 0 though nothing more is written (R93, R205). -/
theorem test_echo_read_left_open :
    ∃ t, doMove (.deliver .s2c false)
        { State.reset with link :=
          { c2s := LaneState.empty, s2c := { LaneState.empty with buf := [0x24] } } } = .next t ∧
      t.cf.nrx = [byteWord false 0x24] := ⟨_, rfl, by decide⟩

/-- A byte that SE has not taken does not count under `NET_BUF` (R97). -/
theorem test_delivered_byte_not_held :
    let s : State := { seIn .active [byteWord true 0x41] with
      cf := { CF.afterReset with ntx := [byteWord true 0x42] }
      params := { Params.reference with netBufC2s := some 1 } }
    ∃ t, doMove (.carry .c2s) s = .next t ∧ t.link.c2s.buf = [0x42] ∧ t.cf.ntx = [] :=
  ⟨_, rfl, by decide⟩

/-- The transport after its stream has ended in both directions. -/
def ended : State :=
  { State.reset with
    se := { SE.afterReset with rx := [eofWord] }
    link := {
      c2s := { LaneState.empty with closed := true, ended := true }
      s2c := { LaneState.empty with closed := true, ended := true } } }

/-- A run that pays the EOF that is due, after which nothing is. -/
def closing : Nat → State
  | 0 => { ended with
      se := SE.afterReset
      link := { ended.link with c2s := { LaneState.empty with closed := true } } }
  | _ => ended

/-- Its moves. -/
def closingMoves : Nat → Move
  | 0 => .deliverEof .c2s
  | _ => .pass

theorem closing_keeps_duties : HostDuties closing closingMoves where
  run := fun k => by cases k <;> rfl
  conforming := rfl
  takes := fun lane k => ⟨k + 1, by omega, .inl
    (show ¬(ended.written lane ≠ [] ∧ (ended.full lane = false ∨ ended.readerClosed lane = true ∨
        (ended.lane lane).closed = true)) by cases lane <;> decide)⟩
  delivers := fun lane k => ⟨k + 1, by omega, .inl
    (show ¬((ended.lane lane).buf ≠ [] ∧ (((ended.lane lane).ended = false ∧
        ended.readerFull lane = false) ∨ ended.readerClosed lane = true)) by cases lane <;> decide)⟩
  endsStream := fun lane k => ⟨k + 1, by omega, .inl
    (show ¬((ended.lane lane).closed = true ∧ (ended.lane lane).buf = [] ∧
        (ended.lane lane).ended = false ∧ ended.readerStarted lane = true) by cases lane <;> decide)⟩
  takesResults := fun k => ⟨k + 1, by omega, .inl (show ¬(ended.cf.res ≠ []) by decide)⟩

/-- Both units reset since the transport was connected. -/
def bothReset : State := resetCf (resetSe (cfIn .done true true []))

/-- SE reset with an illegal policy beside a CF that is reset: SE's CLOSE waits for the new connection (R96, R94,
R221). -/
theorem test_close_after_reset_waits :
    let s := resetCf (resetSe { State.reset with sePorts := ⟨0x24, .enc, .illegal⟩ })
    s.readerClosed .s2c = true ∧ (s.lane .s2c).buf = [] ∧ (s.lane .s2c).writerReset = true ∧
      ∃ t, doMove (.drop .s2c) s = .next t ∧ t.se.tx = [closeWord] := ⟨by decide, rfl, rfl, _, rfl, by decide⟩

/-- A handshake byte written before the transport is connected waits for it (R92, R96). -/
theorem test_handshake_after_reset_waits :
    let s := { bothReset with cf := { bothReset.cf with cst := .hsWait, ntx := [byteWord true 0x24] } }
    s.readerClosed .c2s = true ∧
      ∃ t, doMove (.drop .c2s) s = .next t ∧ t.cf.ntx = [byteWord true 0x24] := ⟨by decide, _, rfl, by decide⟩

/-- The EOF of an SE with an illegal configuration waits for CF's START (R221, R289, R132). -/
theorem test_eof_waits_for_start :
    let s (cst : CfSt) : State := { cfIn cst false false [] with
      link := { c2s := .empty, s2c := { LaneState.empty with closed := true } } }
    (∃ t, doMove (.deliverEof .s2c) (s .idle) = .next t ∧ t.cf.nrx = []) ∧
      ∃ t, doMove (.deliverEof .s2c) (s .hsWait) = .next t ∧ t.cf.nrx = [eofWord] :=
  ⟨⟨_, rfl, by decide⟩, _, rfl, by decide⟩

/-- A run at rest serves only what is not due. -/
theorem not_due_at_rest {s : State} {due : State → Prop} {serves : Move → Prop}
    (h : Served (fun _ => s) (fun _ => .pass) due serves) : ¬due s := by
  obtain ⟨_, _, hd | ⟨_, hd⟩⟩ := h 0
  exacts [hd, absurd rfl hd]

/-- A host that never connects the transport for a word written after the resets breaks its duty (R98). -/
theorem test_duty_connects :
    ¬HostDuties (fun _ =>
        { bothReset with cf := { bothReset.cf with cst := .hsWait, ntx := [byteWord true 0x24] } })
      (fun _ => .pass) := fun h => not_due_at_rest (h.takes .c2s) (by decide)

/-- So does one that drops nothing towards a closed SE, after an IOERR and with `NET_BUF` used up (R96, R98). -/
theorem test_duty_drops :
    ¬HostDuties (fun _ => { seIn .closed [] with
        link := { c2s := { LaneState.empty with buf := [0x41], ended := true }, s2c := .empty }
        params := { Params.reference with netBufC2s := some 1 } })
      (fun _ => .pass) := fun h => not_due_at_rest (h.delivers .c2s) (by decide)

/-- A direction that holds `NET_BUF` bytes; an ended one; one that can deliver its EOF; a closed reader; a reset; a
connection that can be made anew and two that cannot; words to take; and a run that keeps the host's duties, in
which the readers' channels always have room. -/
theorem witness_TransportLimits :
    (let s : State := { carrying [0x41] [] .empty with
       params := { Params.reference with netBufC2s := some 1 } }
     s.netBuf .c2s = some 1 ∧ 1 ≤ (s.lane .c2s).buf.length) ∧
    (ended.lane .c2s).ended = true ∧
    (let l := ((closing 0).lane .c2s); l.ended = false ∧ l.closed = true ∧ l.buf = []) ∧
    ((State.reset.lane .c2s).closed = false ∧ State.reset.cf.cst = .idle ∧
      ((carrying [0x41] [] { LaneState.empty with closed := true }).lane .c2s).buf ≠ []) ∧
    (let s : State := { cfIn .hsWait false false [] with
       link := { c2s := .empty, s2c := { LaneState.empty with closed := true } } }
     (s.lane .s2c).ended = false ∧ (s.lane .s2c).closed = true ∧ (s.lane .s2c).buf = [] ∧
       s.cf.cst ≠ .idle) ∧
    ((seTerminated []).readerClosed .c2s = true ∧ ((seTerminated []).lane .c2s).writerReset = false ∧
      ended.readerClosed .s2c = true ∧ bothReset.readerClosed .c2s = true ∧
      (bothReset.lane .c2s).buf = [] ∧ State.reset.readerClosed .c2s = false) ∧
    (∃ t, doMove .resetCf (cfIn .stream true false []) = .next t) ∧
    (bothReset.link.c2s.writerReset = true ∧ bothReset.link.s2c.writerReset = true ∧
      bothReset.se.rx = [] ∧ bothReset.cf.nrx = []) ∧
    ((State.reset.lane .c2s).writerReset = false ∧
      (seIn .awaitHs [eofWord]).readerChannel .c2s ≠ []) ∧
    ((CF.resetStep ⟨0x41⟩).res = [.fail .cfgIllegal] ∧ (CF.resetStep ⟨0x41⟩).ev = [⟨.closed, 0x9⟩] ∧
      (SE.resetStep ⟨0x41, .enc, .skip⟩).ev = [⟨.closed, 0x9⟩]) ∧
    HostDuties closing closingMoves ∧
    ∀ lane k, ∃ j, k ≤ j ∧ (closing j).readerFull lane = false :=
  ⟨by decide, by decide, by decide, by decide, by decide, by decide, ⟨_, rfl⟩, by decide, by decide,
    by decide, closing_keeps_duties, fun lane k => ⟨k + 1, by omega, by cases lane <;> rfl⟩⟩
/-- The hang of R321: both units wait, and every channel between them is empty. The deadlock of R322: SE
holds on a full `SE.tx`, CF on a full `CF.ntx`, and `NET_BUF` and the readers' channels are used up both ways. -/
theorem witness_AlternationHang :
    (let s : State := { cfIn .stream true false [] with se := { SE.afterReset with st := .active } }
     s.cf.cst = .stream ∧ s.cf.ph = true ∧ s.cf.nrx = [] ∧ s.cf.ntx = [] ∧ s.se.st = .active ∧
       s.se.rx = [] ∧ s.se.tx = [] ∧ s.link.c2s.buf = [] ∧ s.link.s2c.buf = [] ∧
       s.link.c2s.closed = false ∧ s.link.s2c.closed = false) ∧
    (let s : State := fullNtx { cfIn .stream false false [byteWord true 0x44] with
       se := { SE.afterReset with
         st := .active, cv := true, cb := 0x48, rx := [byteWord true 0x58]
         tx := [byteWord false 0x44, byteWord false 0x44] }
       link := { c2s := { LaneState.empty with buf := [0x48] }
                 s2c := { LaneState.empty with buf := [0x44] } }
       params := { Params.reference with
         netBufC2s := some 1, netBufS2c := some 1, rxRoomC2s := some 1, rxRoomS2c := some 1 } }
     s.cf.cst = .stream ∧ s.se.st = .active ∧
       s.link.c2s.closed = false ∧ s.link.s2c.closed = false ∧ s.cf.ph = false ∧
       s.params.obuf ≤ s.cf.ntx.length ∧ seRxReady s = false ∧
       (s.netBuf .c2s = some 1 ∧ 1 ≤ (s.lane .c2s).buf.length ∧ s.readerRoom .c2s = some 1 ∧
         1 ≤ (byteData (s.readerChannel .c2s)).length) ∧
       s.netBuf .s2c = some 1 ∧ 1 ≤ (s.lane .s2c).buf.length ∧ s.readerRoom .s2c = some 1 ∧
         1 ≤ (byteData (s.readerChannel .s2c)).length) := by decide

/-- A START of one data and one key byte, V3's pair, in `CF.cmd`. -/
def sessionStart : State :=
  { State.reset with
    cf := { CF.afterReset with cmd := [{ op := opStart, n := 1, m := 1 }] }
    data := [(0, 0x48)], key := [(0, 0x58)] }

/-- The moves of that session, up to the last word of the host. -/
def sessionMoves : List Move :=
  [.cfCommand, .carry .c2s, .deliver .c2s true, .se, .carry .s2c, .deliver .s2c true, .cfNet,
    .cfInternal, .cfInternal, .carry .c2s, .carry .c2s, .deliver .c2s false, .deliver .c2s true, .se,
    .se, .carry .s2c, .deliver .s2c true, .cfNet,
    .cfInternal, .carry .c2s, .deliver .c2s true, .se, .carry .s2c, .deliver .s2c true, .cfNet,
    .carry .s2c, .deliverEof .s2c, .cfNet, .carry .c2s, .deliverEof .c2s, .se,
    .takeRes, .takeRes, .takeSeEv, .takeSeEv, .takeCfEv, .takeCfEv]

/-- The move made at each point of its run; nothing happens after the last. -/
def sessionMove (k : Nat) : Move := sessionMoves.getD k .pass

/-- Its run. -/
def sessionState : Nat → State
  | 0 => sessionStart
  | k + 1 =>
    match doMove (sessionMove k) (sessionState k) with
    | .next t => t
    | .fault _ | .refused _ => sessionState k


/-- A move of the session that did not stop the machine. -/
def sessionGoesOn (k : Nat) : Bool :=
  match doMove (sessionMove k) (sessionState k) with
  | .next _ => true
  | .fault _ | .refused _ => false

theorem session_moves : ∀ k < 37, sessionGoesOn k = true := by decide +kernel
theorem session_buffers : ∀ k < 38, (sessionState k).data = [(0, 0x48)] ∧
    (sessionState k).key = [(0, 0x58)] := by decide +kernel
theorem session_done : (sessionState 37).cf.cst = .done := by decide +kernel

theorem session_passes (k : Nat) (h : ¬k < 37) : sessionMove k = .pass :=
  List.getD_eq_default _ _ (show 37 ≤ k by omega)

theorem session_rests (k : Nat) (h : 37 ≤ k) : sessionState k = sessionState 37 := by
  induction k, h using Nat.le_induction with
  | base => rfl
  | succ k hk ih =>
    rw [sessionState, session_passes k (by omega)]
    exact ih

/-- The session has no IOERR and no reset. -/
theorem session_undisturbed (k : Nat) : (∀ lane, sessionMove k ≠ .deliverErr lane) ∧
    sessionMove k ≠ .resetSe ∧ sessionMove k ≠ .resetCf := by
  have h : ∀ k < 37, sessionMove k ≠ .deliverErr .c2s ∧ sessionMove k ≠ .deliverErr .s2c ∧
      sessionMove k ≠ .resetSe ∧ sessionMove k ≠ .resetCf := by decide +kernel
  by_cases hk : k < 37
  · have h := h k hk
    exact ⟨fun lane => by cases lane; exacts [h.1, h.2.1], h.2.2⟩
  · rw [session_passes k hk]; simp

theorem session_runs : IsRun sessionState sessionMove := by
  intro k
  have h : sessionGoesOn k = true := by
    by_cases hk : k < 37
    · exact session_moves k hk
    · rw [sessionGoesOn, session_passes k hk]
      rfl
  rw [sessionGoesOn] at h
  rw [sessionState]
  cases hd : doMove (sessionMove k) (sessionState k) <;> simp_all

/-- What nothing is due for in the end is served. -/
theorem session_serves {due : State → Prop} {serves : Move → Prop} (h : ¬due (sessionState 37)) :
    Served sessionState sessionMove due serves := fun k =>
  ⟨k + 37, by omega, .inl (by rw [session_rests _ (by omega)]; exact h)⟩

theorem session_inv : sessionStart.Inv :=
  ⟨by decide, by constructor <;> decide,
    by constructor <;> (simp [sessionStart, State.reset, CF.afterReset, CF.terminal]; try decide),
    fun lane => ⟨by cases lane <;> rintro k ⟨⟩, by cases lane <;> rintro _ k ⟨⟩,
      by cases lane <;> decide⟩, by decide, by decide⟩

/-- A session of one data and one key byte that R320 says ends, from START to the last word of the host. -/
theorem witness_SessionEnds : LiveSession sessionState sessionMove 1 1 where
  duties := {
    run := session_runs
    conforming := rfl
    takes := fun lane => session_serves (by cases lane <;> decide +kernel)
    delivers := fun lane => session_serves (by cases lane <;> decide +kernel)
    endsStream := fun lane => session_serves (by cases lane <;> decide +kernel)
    takesResults := session_serves (by decide +kernel) }
  units := ⟨session_serves (by decide +kernel), session_serves (by decide +kernel),
    session_serves (by decide +kernel), session_serves (by decide +kernel)⟩
  sentinel := by decide
  chunk := by decide
  symbols := by
    refine .inr fun k i _ hi => ?_
    have h : (sessionState k).data = [(0, 0x48)] ∧ (sessionState k).key = [(0, 0x58)] := by
      by_cases hk : k < 38
      · exact session_buffers k hk
      · rw [session_rests k (by omega)]; exact session_buffers 37 (by decide)
    obtain rfl : i = 0 := by omega
    rw [h.1, h.2]
    decide
  room := by rintro k ⟨⟩
  noError := fun k => (session_undisturbed k).1
  noReset := fun k => (session_undisturbed k).2
  readsEnd := fun k => ⟨k + 37, by omega, by
    rw [session_rests _ (by omega)]; rintro ⟨h, -⟩; rw [session_done] at h; cases h⟩
  drains := ⟨session_serves (by decide +kernel), session_serves (by decide +kernel)⟩
  inv := session_inv
  start := by decide

theorem witness_StepRunsDecodedInstruction :
    midStream.script = [.se] ∧ presented .se midStream = some (.seDv 0b011000) ∧
      decode (.seDv 0b011000) = .ok (.seKey false) := by decide
theorem witness_DecodeEncodeAgree :
    (Instr.byteInvalid 0x61).wellFormed = true ∧
      decode (.cfDv 0b1000011111) = .ok (.cfDiscard1 true true 0b111) := by decide
theorem witness_StepKeepsInvariant :
    midStream.Inv ∧ ∃ t, step midStream = .next t ∧ t.se ≠ midStream.se :=
  ⟨midStream_inv, _, rfl, by decide⟩
theorem witness_ReachableMeetsInvariant :
    Reachable { State.reset with params := Params.reference, bench := false, script := [.se] } :=
  .reset _ _ _ (by decide)
theorem witness_StopsOnlyOnHostFault : midStream.Inv ∧ midStream.script = [.se] :=
  ⟨midStream_inv, by decide⟩

end Sys2Proof.Tests
end

section
/-! SUPPORT. Which format a decoded instruction has, and everything a unit's step can do. -/

namespace Sys2Proof.Machine

@[simp] theorem present_se (m : Move) (s : State) : (present m s).se = s.se := by
  cases m <;> rfl
@[simp] theorem present_cf (m : Move) (s : State) : (present m s).cf = s.cf := by
  cases m <;> rfl

/-- CF's table answers CF's instructions, whichever source the vector names (R132). -/
theorem decodeCf_format {v : BitVec 10} {i : Instr} (h : decodeCf v = .ok i) :
    (Laws.row i).format = .cfDv := by
  have all : ∀ v : BitVec 10, (decodeCf v).toOption.all
      (fun i => decide ((Laws.row i).format = .cfDv)) = true := by decide
  simpa [h, Except.toOption] using all v

/-- The decoder of each format answers an instruction of that format (R130, R132, R133, R125). -/
theorem decode_format {v : InstrWord} {i : Instr} (h : decode v = .ok i) :
    (Laws.row i).format = Laws.formatOf v := by
  have hse : ∀ v : BitVec 6, (Laws.row (decodeSe v)).format = .seDv := by decide
  have hbyte : ∀ b : Byte, (Laws.row (decodeByte b)).format = .byte := by decide
  have hdir : ∀ d : BitVec 1, (Laws.row (decodeDir d)).format = .cfgDir := by decide
  have hpol : ∀ p : BitVec 2, (Laws.row (decodePol p)).format = .cfgPol := by decide
  cases v with
  | seDv v => cases h; exact hse v
  | cfDv v => exact decodeCf_format h
  | byte b => cases h; exact hbyte b
  | cfgDir d => cases h; exact hdir d
  | cfgPol p => cases h; exact hpol p

/-- Everything a unit's step can do: it holds, or it runs the instruction its word decodes to. -/
theorem unitStep_cases {m : Move} {s t : State} (h : unitStep m s = .next t) :
    t = s ∨ ∃ v i, presented m s = some v ∧ decode v = .ok i ∧ exec i (present m s) = .next t := by
  unfold unitStep at h
  split at h
  · exact .inl (by simpa using h.symm)
  · next v hv =>
    split at h
    · next i hi => exact .inr ⟨v, i, hv, hi, h⟩
    · exact .inl (by simpa using h.symm)

/-- The only policy field presented to the decoder is the latched one. -/
theorem presented_cfgPol {m : Move} {s : State} {p : BitVec 2}
    (h : presented m s = some (.cfgPol p)) : p = s.se.pol.bits := by
  cases m <;> simp_all [presented]

theorem decodePol_bits_eq_polIllegal (p : Policy) :
    decodePol p.bits = .polIllegal ↔ p = .illegal := by
  cases p <;> decide

/-- The row POL_ILLEGAL is run only while SE holds the policy code `11`. -/
theorem pol_illegal_of_decode_polIllegal {m : Move} {s : State} {v : InstrWord}
    (hv : presented m s = some v) (hd : decode v = .ok .polIllegal) : s.se.pol = .illegal := by
  have hformat := decode_format hd
  cases v with
  | cfgPol p =>
    obtain rfl := presented_cfgPol hv
    exact (decodePol_bits_eq_polIllegal _).mp (by simpa [decode] using hd)
  | seDv | cfDv | byte | cfgDir => cases hformat

end Sys2Proof.Machine
end

section
/-! SUPPORT. The configuration registers of the two units (R38, R45, R47): what every operation but a
reset step leaves of them. -/

namespace Sys2Proof.Machine

/-- SE's configuration registers: SENT, DIR, POL and CFG_OK (R38). -/
def SE.configRegs (u : SE) : Byte × Dir × Policy × Bool := (u.sent, u.dir, u.pol, u.cfgOk)

/-- CF's configuration registers: SENT and CFG_OK (R47). -/
def CF.configRegs (c : CF) : Byte × Bool := (c.sent, c.cfgOk)

/-- The configuration registers of both units. -/
def State.configRegs (s : State) : (Byte × Dir × Policy × Bool) × Byte × Bool :=
  (s.se.configRegs, s.cf.configRegs)

theorem SE.configRegs_eq_iff (u v : SE) :
    u.configRegs = v.configRegs ↔
      u.sent = v.sent ∧ u.dir = v.dir ∧ u.pol = v.pol ∧ u.cfgOk = v.cfgOk := by
  simp [SE.configRegs]

theorem CF.configRegs_eq_iff (c d : CF) :
    c.configRegs = d.configRegs ↔ c.sent = d.sent ∧ c.cfgOk = d.cfgOk := by
  simp [CF.configRegs]

theorem State.configRegs_eq_iff (s t : State) :
    s.configRegs = t.configRegs ↔
      s.se.configRegs = t.se.configRegs ∧ s.cf.configRegs = t.cf.configRegs := by
  simp [State.configRegs]

/-! ### What the operations of a unit leave -/

section Units
variable (u : SE) (c : CF) (x : Cause)

@[simp] theorem SE.close_configRegs : (u.close x).configRegs = u.configRegs := by
  simp [SE.configRegs]

@[simp] theorem CF.fails_configRegs : (c.fails x).configRegs = c.configRegs := by
  simp [CF.configRegs]

@[simp] theorem SE.emit_configRegs (w : NetWord) : (u.emit w).configRegs = u.configRegs := rfl
@[simp] theorem SE.event_configRegs (k : EvCode) (a : BitVec 4) :
    (u.event k a).configRegs = u.configRegs := rfl
@[simp] theorem SE.clearCarry_configRegs : u.clearCarry.configRegs = u.configRegs := rfl
@[simp] theorem CF.event_configRegs (k : EvCode) (a : BitVec 4) :
    (c.event k a).configRegs = c.configRegs := rfl

/-- No answer of a pair writes the configuration (R182). -/
@[simp] theorem keyStep_configRegs (w : NetWord) : (keyStep u w).configRegs = u.configRegs := by
  unfold keyStep
  cases pairConverts u.cb w.data <;> cases keyPair u w <;> simp

@[simp] theorem netIllegalStep_configRegs (w : NetWord) :
    (netIllegalStep c w).configRegs = c.configRegs := by
  unfold netIllegalStep
  split <;> simp

end Units

/-! ### What the steps leave -/

section Steps
variable {s t : State}

theorem seTake_configRegs {need : SE → NetWord → Nat} {act : SE → NetWord → SE}
    (h : seTake need act s = .next t) (hact : ∀ u w, (act u w).configRegs = u.configRegs) :
    t.configRegs = s.configRegs := by
  rcases seTake_cases h with rfl | ⟨w, rest, -, -, rfl⟩
  · rfl
  · exact (State.configRegs_eq_iff _ _).mpr ⟨hact _ w, rfl⟩

theorem cfTakeNet_configRegs {net res : CF → Nat} {act : CF → NetWord → CF}
    (h : cfTakeNet net res act s = .next t) (hact : ∀ c w, (act c w).configRegs = c.configRegs) :
    t.configRegs = s.configRegs := by
  rcases cfTakeNet_cases h with rfl | ⟨w, rest, -, -, rfl⟩
  · rfl
  · exact (State.configRegs_eq_iff _ _).mpr ⟨rfl, hact _ w⟩

theorem cfTakeCommand_configRegs {net res : CF → Nat} {act : CF → CmdWord → CF}
    (h : cfTakeCommand net res act s = .next t)
    (hact : ∀ c w, (act c w).configRegs = c.configRegs) : t.configRegs = s.configRegs := by
  rcases cfTakeCommand_cases h with rfl | ⟨w, rest, -, -, rfl⟩
  · rfl
  · exact (State.configRegs_eq_iff _ _).mpr ⟨rfl, hact _ w⟩

theorem cfSend_configRegs {act : CF → CF} (h : cfSend act s = .next t)
    (hact : ∀ c, (act c).configRegs = c.configRegs) : t.configRegs = s.configRegs := by
  rcases cfSend_cases h with rfl | ⟨-, rfl⟩
  · rfl
  · exact (State.configRegs_eq_iff _ _).mpr ⟨rfl, hact _⟩

/-- No instruction but POL_ILLEGAL writes a configuration register: the others step one unit by an
operation that keeps them, or let a combinational unit answer on its nets. -/
theorem exec_configRegs {i : Instr} (h : exec i s = .next t) (hi : i ≠ .polIllegal) :
    t.configRegs = s.configRegs := by
  cases i with
  | seHsOk | seData | seDiscard =>
    simp only [exec, execSeHsOk, execSeData, execSeDiscard] at h
    exact seTake_configRegs h fun _ _ => rfl
  | seHsBad | seHsEof | seHsErr | seTerm | seEof | seIoerr =>
    simp only [exec, execSeHsBad, execSeHsEof, execSeHsErr, execSeTerm, execSeEof, execSeIoerr] at h
    exact seTake_configRegs h fun u _ => SE.close_configRegs _ _
  | seIllegal =>
    simp only [exec, execSeIllegal] at h
    exact seTake_configRegs h fun u _ => by split <;> simp
  | seKey =>
    simp only [exec, execSeKey] at h
    exact seTake_configRegs h keyStep_configRegs
  | seReservedState => cases h
  | cfStartOk =>
    simp only [exec, execCfStartOk] at h
    exact cfTakeCommand_configRegs h fun _ _ => rfl
  | cfStartKeylen | cfCmdIllegal1 | cfCmdIllegal2 | cfCmdIllegal3 =>
    simp only [exec, execCfStartKeylen, execCfCmdIllegal1, execCfCmdIllegal2, execCfCmdIllegal3] at h
    exact cfTakeCommand_configRegs h fun c _ => CF.fails_configRegs _ _
  | cfHsOk | cfRecvByte | cfRecvTerm | cfDiscard1 | cfDiscard2 | cfDiscard3 =>
    simp only [exec, execCfHsOk, execCfRecvByte, execCfRecvTerm, execCfDiscard1, execCfDiscard2,
      execCfDiscard3] at h
    exact cfTakeNet_configRegs h fun _ _ => rfl
  | cfHsBad | cfHsEof | cfHsErr | cfRecvEof | cfRecvErr =>
    simp only [exec, execCfHsBad, execCfHsEof, execCfHsErr, execCfRecvEof, execCfRecvErr] at h
    exact cfTakeNet_configRegs h fun _ _ => CF.fails_configRegs _ _
  | cfNetIllegal1 | cfNetIllegal2 =>
    simp only [exec, execCfNetIllegal1, execCfNetIllegal2] at h
    exact cfTakeNet_configRegs h netIllegalStep_configRegs
  | cfSendByte | cfSendSent =>
    simp only [exec, execCfSendByte, execCfSendSent] at h
    exact cfSend_configRegs h fun _ => rfl
  | polIllegal => exact absurd rfl hi
  | _ => cases h; rfl

/-- POL_ILLEGAL leaves CF alone. -/
theorem execPolIllegal_cf (h : execPolIllegal s = .next t) : t.cf = s.cf := by
  unfold execPolIllegal at h
  split at h
  · cases h; rfl
  · split at h <;> cases h <;> rfl

/-- POL_ILLEGAL on a CLOSED SE writes POL and CFG_OK alone (R286). -/
theorem execPolIllegal_closed (hclosed : s.se.st = .closed) :
    execPolIllegal s = .next { s with se := { s.se with pol := .illegal, cfgOk := false } } := by
  simp [execPolIllegal, hclosed]

/-- An SE that holds the policy code `11` has found its configuration illegal and is CLOSED (R220,
R221). -/
theorem SE.Inv.closed_of_pol_illegal {p : Params} {u : SE} (hu : u.Inv p)
    (hpol : u.pol = .illegal) : u.cfgOk = false ∧ u.st = .closed := by
  have hcfg : u.cfgOk = false := by simp [hu.config, seCfgLegal, hpol]
  have hcause : u.cause = .cfgIllegal := hu.config_closed.mp hcfg
  exact ⟨hcfg, hu.caused.mp (by simp [hcause])⟩

end Steps

/-! ### What the moves leave -/

section Moves
variable (s : State) (lane : Lane)

@[simp] theorem State.setLane_configRegs (l : LaneState) :
    (s.setLane lane l).configRegs = s.configRegs := by
  cases lane <;> rfl
@[simp] theorem State.setWritten_configRegs (ws : List NetWord) :
    (s.setWritten lane ws).configRegs = s.configRegs := by
  cases lane <;> rfl
@[simp] theorem State.pushRead_configRegs (w : NetWord) :
    (s.pushRead lane w).configRegs = s.configRegs := by
  cases lane <;> rfl
@[simp] theorem State.setSpace_configRegs (space : Space) (m : Memory) :
    (s.setSpace space m).configRegs = s.configRegs := by
  cases space <;> rfl
@[simp] theorem present_configRegs (m : Move) : (present m s).configRegs = s.configRegs := by
  cases m <;> rfl

theorem carry_configRegs : (carry lane s).configRegs = s.configRegs := by
  rcases carry_cases lane s with h | ⟨w, rest, -, -, -, ⟨-, h⟩ | ⟨-, h⟩⟩ <;> simp [h]

theorem deliver_configRegs (last : Bool) : (deliver lane last s).configRegs = s.configRegs := by
  rcases deliver_cases lane s last with h | ⟨b, rest, -, -, -, -, h⟩ <;> simp [h]

theorem deliverEof_configRegs : (deliverEof lane s).configRegs = s.configRegs := by
  rcases deliverEof_cases lane s with h | ⟨-, -, -, -, h⟩ <;> simp [h]

theorem deliverErr_configRegs : (deliverErr lane s).configRegs = s.configRegs := by
  rcases deliverErr_cases lane s with h | ⟨-, h⟩ <;> simp [h]

theorem dropWord_configRegs : (dropWord lane s).configRegs = s.configRegs := by
  rcases dropWord_cases lane s with h | ⟨-, ⟨b, rest, -, h⟩ | ⟨-, -, h⟩⟩ <;> simp [h]

theorem connect_configRegs : (connect s).configRegs = s.configRegs := by
  rcases connect_cases s with h | ⟨-, h⟩ <;> rw [h]; rfl

theorem benchPut_configRegs (w : NetWord) : (benchPut lane w s).configRegs = s.configRegs := by
  rcases benchPut_cases lane s w with h | ⟨-, h⟩ <;> simp [h]

theorem benchTake_configRegs : (benchTake lane s).configRegs = s.configRegs := by
  rcases benchTake_cases lane s with h | ⟨-, h⟩ <;> simp [h]

theorem sendCommand_configRegs (bits : Nat) :
    (sendCommand bits s).configRegs = s.configRegs := by
  rcases sendCommand_cases s bits with h | ⟨w, -, -, h⟩ <;> rw [h]; rfl

variable {s} {t : State}

theorem place_configRegs {space : Space} {addr : Nat} {b : Byte}
    (h : place space addr b s = .next t) : t.configRegs = s.configRegs := by
  obtain ⟨-, -, rfl⟩ := place_cases h
  exact State.setSpace_configRegs ..

/-- A unit's step writes a configuration register only as POL_ILLEGAL, on the policy code `11`. -/
theorem unitStep_configRegs {m : Move} (h : unitStep m s = .next t) :
    t.configRegs = s.configRegs ∨
      s.se.pol = .illegal ∧ execPolIllegal (present m s) = .next t := by
  rcases unitStep_cases h with rfl | ⟨v, i, hv, hd, he⟩
  · exact .inl rfl
  · by_cases hi : i = .polIllegal
    · subst hi
      exact .inr ⟨pol_illegal_of_decode_polIllegal hv hd, he⟩
    · exact .inl ((exec_configRegs he hi).trans (present_configRegs s m))

/-- No move but the two reset steps and POL_ILLEGAL writes a configuration register (R45, R327). -/
theorem doMove_configRegs {m : Move} (h : doMove m s = .next t) (hse : m ≠ .resetSe)
    (hcf : m ≠ .resetCf) :
    t.configRegs = s.configRegs ∨
      s.se.pol = .illegal ∧ execPolIllegal (present m s) = .next t := by
  cases m with
  | se | cfCommand | cfNet | cfInternal | alpha | xform | policy => exact unitStep_configRegs h
  | resetSe => exact absurd rfl hse
  | resetCf => exact absurd rfl hcf
  | place => exact .inl (place_configRegs h)
  | pass | setSePorts | setCfPorts | takeRes | takeSeEv | takeCfEv => cases h; exact .inl rfl
  | command bits => cases h; exact .inl (sendCommand_configRegs s bits)
  | connect => cases h; exact .inl (connect_configRegs s)
  | carry lane => cases h; exact .inl (carry_configRegs s lane)
  | deliver lane last => cases h; exact .inl (deliver_configRegs s lane last)
  | deliverEof lane => cases h; exact .inl (deliverEof_configRegs s lane)
  | deliverErr lane => cases h; exact .inl (deliverErr_configRegs s lane)
  | drop lane => cases h; exact .inl (dropWord_configRegs s lane)
  | benchRx w => cases h; exact .inl (benchPut_configRegs s .c2s w)
  | benchNrx w => cases h; exact .inl (benchPut_configRegs s .s2c w)
  | benchTx => cases h; exact .inl (benchTake_configRegs s .s2c)
  | benchNtx => cases h; exact .inl (benchTake_configRegs s .c2s)

@[simp] theorem resetCf_se (s : State) : (resetCf s).se = s.se := by simp [resetCf]
@[simp] theorem resetSe_cf (s : State) : (resetSe s).cf = s.cf := by simp [resetSe]

/-- In a state of SE's invariant POL_ILLEGAL, if it runs at all, writes what SE holds already. -/
theorem doMove_se_configRegs {m : Move} (h : doMove m s = .next t) (hinv : s.se.Inv s.params)
    (hse : m ≠ .resetSe) : t.se.configRegs = s.se.configRegs := by
  by_cases hcf : m = .resetCf
  · subst hcf; cases h; rw [resetCf_se]
  · rcases doMove_configRegs h hse hcf with hkeep | ⟨hpol, hill⟩
    · exact ((State.configRegs_eq_iff _ _).mp hkeep).1
    · obtain ⟨hcfg, hclosed⟩ := hinv.closed_of_pol_illegal hpol
      rw [execPolIllegal_closed (by simpa using hclosed)] at hill
      cases hill
      simp [SE.configRegs, hpol, hcfg]

theorem doMove_cf_configRegs {m : Move} (h : doMove m s = .next t) (hcf : m ≠ .resetCf) :
    t.cf.configRegs = s.cf.configRegs := by
  by_cases hse : m = .resetSe
  · subst hse; cases h; rw [resetSe_cf]
  · rcases doMove_configRegs h hse hcf with hkeep | ⟨-, hill⟩
    · exact ((State.configRegs_eq_iff _ _).mp hkeep).2
    · rw [execPolIllegal_cf hill, present_cf]

end Moves

/-- Settles O38: of all moves only the resets and POL_ILLEGAL write a configuration register, and in a
state of SE's invariant POL_ILLEGAL writes what is there. -/
theorem configurationLatched : Obligations.ConfigurationLatched := by
  intro s t m h
  exact ⟨fun hinv hm => (SE.configRegs_eq_iff _ _).mp (doMove_se_configRegs h hinv hm),
    fun hm => (CF.configRegs_eq_iff _ _).mp (doMove_cf_configRegs h hm)⟩

end Sys2Proof.Machine
end

section
/-! SUPPORT. The checks of a configuration, and the source read port outside STREAM. Then the statements
about the reset steps. -/

namespace Sys2Proof.Machine

/-- R220, in the words of its rule: the sentinel is no symbol, the policy is one of three, and MARK output
does not look like the sentinel. -/
theorem seCfgLegal_iff (sent : Byte) (pol : Policy) :
    seCfgLegal sent pol = true ↔
      sym2val sent = none ∧ pol ≠ .illegal ∧ ¬(pol = .mark ∧ sent = 0x3F) := by
  simp [seCfgLegal, markByteValue, and_assoc, or_iff_not_imp_left]

theorem cfCfgLegal_iff (sent : Byte) : cfCfgLegal sent = true ↔ sym2val sent = none := by
  simp [cfCfgLegal]

/-- Outside STREAM no internal step is enabled (R132). -/
theorem cfEnabled_cfInternal_of_not_stream {s : State} (h : s.cf.cst ≠ .stream) :
    cfEnabled .cfInternal s = none := by
  simp only [cfEnabled, presented, decode, decodeCf_internalVector]
  cases hc : s.cf.cst <;> simp_all [cfInternalOperation]

/-- Outside STREAM CF asks for no source read (R77, R245). -/
theorem sourceRequest_of_not_stream {s : State} (h : s.cf.cst ≠ .stream) :
    sourceRequest s = none := by
  simp [sourceRequest, cfEnabled_cfInternal_of_not_stream h]

/-- SE's reset step writes SE, from its ports, and the transport (R310, R329). -/
theorem doMove_resetSe (s : State) :
    doMove .resetSe s =
      .next { s with se := SE.resetStep s.sePorts, link := (resetSe s).link } := rfl

/-- CF's reset step writes CF, from its port, and the transport (R310, R329). -/
theorem doMove_resetCf (s : State) :
    doMove .resetCf s =
      .next { s with cf := CF.resetStep s.cfPorts, link := (resetCf s).link } := rfl

/-- Settles O33, by the legality of the configuration on the ports. -/
theorem serverReset : Obligations.ServerReset := by
  intro s
  refine ⟨SE.resetStep s.sePorts, _, doMove_resetSe s, ?_⟩
  simp only [← seCfgLegal_iff]
  cases hlegal : seCfgLegal s.sePorts.sent s.sePorts.pol with
  | true => simp [SE.resetStep_legal _ hlegal]
  | false => simp [SE.resetStep_illegal _ hlegal]

/-- CF's reset step never leaves STREAM. -/
theorem CF.resetStep_cst_ne_stream (p : CfCfgPorts) : (CF.resetStep p).cst ≠ .stream := by
  cases hlegal : cfCfgLegal p.sent with
  | true => simp [CF.resetStep_legal _ hlegal]
  | false => simp [CF.resetStep_illegal _ hlegal]

/-- Settles O34, by the legality of the sentinel on the port. -/
theorem clientReset : Obligations.ClientReset := by
  intro s
  have hrequest : sourceRequest { s with cf := CF.resetStep s.cfPorts } = none :=
    sourceRequest_of_not_stream (CF.resetStep_cst_ne_stream s.cfPorts)
  refine ⟨CF.resetStep s.cfPorts, _, doMove_resetCf s, ?_⟩
  simp only [hrequest, ne_eq, ← cfCfgLegal_iff]
  cases hlegal : cfCfgLegal s.cfPorts.sent with
  | true => simp [CF.resetStep_legal _ hlegal]
  | false => simp [CF.resetStep_illegal _ hlegal]

end Sys2Proof.Machine
end

section
/-! SUPPORT. The fields of the status and configuration words (R50 to R53). Then the statement about the
words, the registers by number and the driven ports. -/

namespace Sys2Proof.Machine

/-- One bit of a word, read as a field of width 1. -/
theorem getLsbD_of_extractLsb' {n i : Nat} {x : BitVec n} {b : Bool}
    (h : x.extractLsb' i 1 = BitVec.ofBool b) : x.getLsbD i = b := by
  have := congrArg (·.getLsbD 0) h
  simpa using this

/-! Each field is the lowest part of its word once the parts below it are cut off. -/

/-- The fields of SE_STATUS (R50). -/
theorem SE.statusWord_fields (u : SE) :
    u.statusWord.extractLsb' 0 2 = u.st.bits ∧ u.statusWord.getLsbD 2 = u.cv ∧
    u.statusWord.getLsbD 3 = u.ts ∧ u.statusWord.extractLsb' 4 4 = 0 ∧
    u.statusWord.extractLsb' 8 4 = u.cause.bits ∧ u.statusWord.extractLsb' 12 4 = 0 ∧
    u.statusWord.extractLsb' 16 8 = u.cb ∧ u.statusWord.extractLsb' 24 8 = 0 := by
  unfold SE.statusWord
  refine ⟨?_, getLsbD_of_extractLsb' ?_, getLsbD_of_extractLsb' ?_, ?_, ?_, ?_, ?_, ?reserved⟩
  all_goals repeat rw [BitVec.extractLsb'_append_eq_of_le (by decide)]
  case reserved => exact BitVec.extractLsb'_eq_self
  all_goals exact BitVec.extractLsb'_append_eq_right

/-- The fields of SE_CFG (R51). -/
theorem SE.cfgWord_fields (u : SE) :
    u.cfgWord.extractLsb' 0 8 = u.sent ∧ u.cfgWord.extractLsb' 8 1 = u.dir.bits ∧
    u.cfgWord.extractLsb' 9 2 = u.pol.bits ∧ u.cfgWord.getLsbD 11 = u.cfgOk ∧
    u.cfgWord.extractLsb' 12 4 = 0 := by
  unfold SE.cfgWord
  refine ⟨?_, ?_, ?_, getLsbD_of_extractLsb' ?_, ?reserved⟩
  all_goals repeat rw [BitVec.extractLsb'_append_eq_of_le (by decide)]
  case reserved => exact BitVec.extractLsb'_eq_self
  all_goals exact BitVec.extractLsb'_append_eq_right

/-- The fields of CF_STATUS (R52). -/
theorem CF.statusWord_fields (c : CF) :
    c.statusWord.extractLsb' 0 3 = c.cst.bits ∧ c.statusWord.getLsbD 3 = c.ph ∧
    c.statusWord.getLsbD 4 = c.allSent ∧ c.statusWord.extractLsb' 5 3 = 0 ∧
    c.statusWord.extractLsb' 8 4 = c.cause.bits ∧ c.statusWord.extractLsb' 12 20 = 0 := by
  unfold CF.statusWord
  refine ⟨?_, getLsbD_of_extractLsb' ?_, getLsbD_of_extractLsb' ?_, ?_, ?_, ?reserved⟩
  all_goals repeat rw [BitVec.extractLsb'_append_eq_of_le (by decide)]
  case reserved => exact BitVec.extractLsb'_eq_self
  all_goals exact BitVec.extractLsb'_append_eq_right

/-- The fields of CF_CFG (R53). -/
theorem CF.cfgWord_fields (c : CF) (p : Params) :
    (c.cfgWord p).extractLsb' 0 8 = c.sent ∧ (c.cfgWord p).getLsbD 8 = c.cfgOk ∧
    (c.cfgWord p).extractLsb' 9 7 = 0 ∧
    (c.cfgWord p).extractLsb' 16 16 = BitVec.ofNat 16 p.chunkMax := by
  unfold CF.cfgWord
  refine ⟨?_, getLsbD_of_extractLsb' ?_, ?_, ?chunkMax⟩
  all_goals repeat rw [BitVec.extractLsb'_append_eq_of_le (by decide)]
  case chunkMax => exact BitVec.extractLsb'_eq_self
  all_goals exact BitVec.extractLsb'_append_eq_right

/-- The sixteen bits of CF_CFG hold every legal `CHUNK_MAX` (R8, R53). -/
theorem CF.cfgWord_chunkMax (c : CF) {p : Params} (hp : p.Legal) :
    ((c.cfgWord p).extractLsb' 16 16).toNat = p.chunkMax := by
  obtain ⟨-, -, -, hfield⟩ := c.cfgWord_fields p
  obtain ⟨-, hmax, -⟩ := hp
  rw [hfield, BitVec.toNat_ofNat]
  exact Nat.mod_eq_of_lt (by omega)

/-- SE has two registers (R50, R51). -/
theorem readSeReg_of_le (s : State) {k : Nat} (h : 2 ≤ k) : readSeReg s k = none := by
  obtain ⟨j, rfl⟩ := Nat.exists_eq_add_of_le' h
  rfl

/-- CF has six registers (R52 to R54). -/
theorem readCfReg_of_le (s : State) {k : Nat} (h : 6 ≤ k) : readCfReg s k = none := by
  obtain ⟨j, rfl⟩ := Nat.exists_eq_add_of_le' h
  rfl

/-- Settles O35. The fields of the words are the lemmas above; the registers by number and the driven
ports are what their definitions say. -/
theorem statusWords : Obligations.StatusWords := by
  refine ⟨fun u => ?_, fun c p => ?_, fun s => ?_⟩
  · obtain ⟨hst, hcv, hts, h4, hcause, h12, hcb, h24⟩ := u.statusWord_fields
    exact ⟨hst, hcv, hts, h4, hcause, h12, hcb, h24, u.cfgWord_fields⟩
  · obtain ⟨hcst, hph, has, h5, hcause, h12⟩ := c.statusWord_fields
    obtain ⟨hsent, hok, h9, -⟩ := c.cfgWord_fields p
    exact ⟨hcst, hph, has, h5, hcause, h12, hsent, hok, h9, c.cfgWord_chunkMax⟩
  · exact ⟨rfl, rfl, fun k => readSeReg_of_le s, rfl, rfl, rfl, rfl, rfl, rfl,
      fun k => readCfReg_of_le s, rfl, rfl, rfl, rfl⟩

end Sys2Proof.Machine
end

section
/-! SUPPORT. Every instruction by the place it takes its word from, and what it does there: the one case
split over the instructions that the statements on holds, readiness and frames rest on. -/

namespace Sys2Proof.Machine

/-- Where an operation finds what it works on (R130, R132): the head of one of the three input channels,
nothing (CF's internal step), the nets of a combinational unit, or SE's policy register. SE_RESERVED_STATE
works on nothing, as it stops. -/
inductive Input where
  | seRx
  | cfNrx
  | cfCmd
  | cfInternal
  | nets
  | policyRegister
  | unreachable
deriving DecidableEq

/-- The place an instruction works on. -/
def inputOf : Instr → Input
  | .seHsOk _ | .seHsBad _ | .seHsEof _ _ | .seHsErr _ _ | .seIllegal _ _ _ | .seData | .seTerm
  | .seKey _ | .seEof _ _ | .seIoerr _ _ | .seDiscard _ _ _ => .seRx
  | .seReservedState _ _ _ => .unreachable
  | .cfStartOk _ _ | .cfStartKeylen _ _ | .cfCmdIllegal1 _ _ _ | .cfCmdIllegal2 _ _ _
  | .cfCmdIllegal3 _ _ _ => .cfCmd
  | .cfHsOk _ _ | .cfHsBad _ _ | .cfHsEof _ _ _ | .cfHsErr _ _ _ | .cfNetIllegal1 _ _ _
  | .cfNetIllegal2 _ _ | .cfRecvByte _ | .cfRecvTerm _ | .cfRecvEof _ _ | .cfRecvErr _ _
  | .cfDiscard1 _ _ _ | .cfDiscard2 _ _ _ | .cfDiscard3 _ _ _ => .cfNrx
  | .cfSendByte | .cfSendSent => .cfInternal
  | .polIllegal => .policyRegister
  | _ => .nets

/-- What an operation of CF leaves of it besides what it takes: the two input channels, and that CF has left
IDLE, to which only a reset leads back (R253, R286). -/
structure CF.KeepsInputs (c d : CF) : Prop where
  nrx : d.nrx = c.nrx
  cmd : d.cmd = c.cmd
  started : c.cst ≠ .idle → d.cst ≠ .idle

/-- `exec` of an instruction is the shared operation of the place it works on, which needs room for exactly the
words that R229 and R253 count. -/
inductive Operation (i : Instr) (s : State) : Input → Prop
  | seRx {act : SE → NetWord → SE} (hexec : exec i s = seTake (seWordsWritten i) act s)
      (hrx : ∀ u w, (act u w).rx = u.rx) : Operation i s .seRx
  | cfNrx {act : CF → NetWord → CF}
      (hexec : exec i s = cfTakeNet (fun c => (cfWordsWritten i c).1)
        (fun c => (cfWordsWritten i c).2) act s)
      (hkeep : ∀ (c : CF) w, c.KeepsInputs (act c w)) : Operation i s .cfNrx
  | cfCmd {act : CF → CmdWord → CF}
      (hexec : exec i s = cfTakeCommand (fun c => (cfWordsWritten i c).1)
        (fun c => (cfWordsWritten i c).2) act s)
      (hkeep : ∀ (c : CF) w, c.KeepsInputs (act c w)) : Operation i s .cfCmd
  | cfInternal {act : CF → CF} (hexec : exec i s = cfSend act s)
      (hwords : cfWordsWritten i s.cf = (1, 0)) (hntx : ∀ c, ∃ w, (act c).ntx = c.ntx ++ [w])
      (hkeep : ∀ c : CF, c.KeepsInputs (act c)) : Operation i s .cfInternal
  | nets {k : Comb} (hexec : exec i s = .next { s with comb := k }) : Operation i s .nets
  | policyRegister (hexec : exec i s = execPolIllegal s) : Operation i s .policyRegister
  | unreachable (hexec : exec i s = .refused .unreachableState) : Operation i s .unreachable

/-! ### What the operations leave of a unit's input channels -/

theorem keyStep_rx (u : SE) (w : NetWord) : (keyStep u w).rx = u.rx := by
  unfold keyStep
  cases pairConverts u.cb w.data <;> cases keyPair u w <;> simp

theorem CF.fails_keepsInputs (c : CF) (x : Cause) : c.KeepsInputs (c.fails x) :=
  ⟨by simp, by simp, by simp⟩

/-- A handshake that fails is reported first (R206 to R208, R251). -/
theorem CF.event_fails_keepsInputs (c : CF) (k : EvCode) (a : BitVec 4) (x : Cause) :
    c.KeepsInputs ((c.event k a).fails x) :=
  ⟨by simp, by simp, by simp⟩

theorem netIllegalStep_keepsInputs (c : CF) (w : NetWord) : c.KeepsInputs (netIllegalStep c w) := by
  unfold netIllegalStep
  split
  · exact c.event_fails_keepsInputs _ _ _
  · exact c.fails_keepsInputs _

/-- The instructions one by one. -/
theorem exec_operation (i : Instr) (s : State) : Operation i s (inputOf i) := by
  cases i with
  | seHsOk | seData | seDiscard =>
    apply Operation.seRx
    · simp only [exec, execSeHsOk, execSeData, execSeDiscard]; rfl
    · exact fun _ _ => rfl
  | seHsBad | seHsEof | seHsErr | seTerm | seEof | seIoerr =>
    apply Operation.seRx
    · simp only [exec, execSeHsBad, execSeHsEof, execSeHsErr, execSeTerm, execSeEof, execSeIoerr]
      rfl
    · exact fun _ _ => SE.close_rx _ _
  | seIllegal =>
    apply Operation.seRx
    · simp only [exec, execSeIllegal]; rfl
    · exact fun u _ => by split <;> simp
  | seKey => exact .seRx rfl keyStep_rx
  | seReservedState => exact .unreachable rfl
  | cfStartOk => exact .cfCmd (act := startStep s.params) rfl fun _ _ => ⟨rfl, rfl, fun _ => nofun⟩
  | cfStartKeylen | cfCmdIllegal1 | cfCmdIllegal2 | cfCmdIllegal3 =>
    exact .cfCmd rfl fun c _ => c.fails_keepsInputs _
  | cfHsOk | cfRecvTerm | cfRecvByte | cfDiscard1 | cfDiscard2 | cfDiscard3 =>
    apply Operation.cfNrx
    · simp only [exec, execCfHsOk, execCfRecvTerm, execCfRecvByte, execCfDiscard1, execCfDiscard2,
        execCfDiscard3]
      rfl
    · exact fun _ _ => ⟨rfl, rfl, by simp [recvStep]⟩
  | cfHsBad | cfHsEof | cfHsErr => exact .cfNrx rfl fun c _ => c.event_fails_keepsInputs _ _ _
  | cfRecvEof | cfRecvErr => exact .cfNrx rfl fun c _ => c.fails_keepsInputs _
  | cfNetIllegal1 | cfNetIllegal2 => exact .cfNrx rfl netIllegalStep_keepsInputs
  | cfSendByte | cfSendSent =>
    apply Operation.cfInternal
    · simp only [exec, execCfSendByte, execCfSendSent]; rfl
    · rfl
    · exact fun _ => ⟨_, rfl⟩
    · exact fun _ => ⟨rfl, rfl, id⟩
  | polIllegal => exact .policyRegister rfl
  | _ => exact .nets rfl

/-! ### The place an instruction's word names -/

/-- An SE vector's instruction works on the head of `SE.rx`, or is SE_RESERVED_STATE (R130, R131). -/
theorem inputOf_of_seDv {i : Instr} {v : BitVec 6} (h : encode i = .seDv v) :
    inputOf i = .seRx ∨ inputOf i = .unreachable := by
  cases i <;> cases h <;> simp [inputOf]

/-- A CF vector's instruction works on one of CF's three sources (R132). -/
theorem inputOf_of_cfDv {i : Instr} {v : BitVec 10} (h : encode i = .cfDv v) :
    inputOf i = .cfNrx ∨ inputOf i = .cfCmd ∨ inputOf i = .cfInternal := by
  cases i <;> cases h <;> simp [inputOf]

theorem inputOf_of_byte {i : Instr} {b : Byte} (h : encode i = .byte b) : inputOf i = .nets := by
  cases i <;> cases h <;> rfl

theorem inputOf_of_cfgDir {i : Instr} {d : BitVec 1} (h : encode i = .cfgDir d) :
    inputOf i = .nets := by
  cases i <;> cases h <;> rfl

theorem inputOf_of_cfgPol {i : Instr} {p : BitVec 2} (h : encode i = .cfgPol p) :
    inputOf i = .nets ∨ inputOf i = .policyRegister := by
  cases i <;> cases h <;> simp [inputOf]

/-- Outside `ST = 11` SE's table picks an operation on the head of `SE.rx` (R130). -/
theorem inputOf_seOperation {st : SeSt} (h : st ≠ .reserved) (cv : Bool) (kind : Kind) (sm : Bool) :
    inputOf (seOperation st cv kind sm) = .seRx := by
  cases st with
  | reserved => exact absurd rfl h
  | closed => rfl
  | awaitHs | active => cases kind <;> cases cv <;> cases sm <;> rfl

/-- A net word that picks an operation picks one on the head of `CF.nrx` (R132, `SRC = 10`). -/
theorem inputOf_cfNetOperation {cst : CfSt} {ph a : Bool} {kind : Kind} {sm : Bool} {i : Instr}
    (h : cfNetOperation cst ph a kind sm = .ok i) : inputOf i = .cfNrx := by
  cases cst with
  | idle | done | fail => cases h; rfl
  | hsWait => cases kind <;> cases sm <;> cases h <;> rfl
  | stream => cases ph <;> cases kind <;> cases sm <;> cases h <;> rfl
  | reserved5 | reserved6 | reserved7 => cases h

/-- A command that picks an operation picks one on the head of `CF.cmd` (R132, `SRC = 01`). -/
theorem inputOf_cfCommandOperation {cst : CfSt} {ph a : Bool} {op : BitVec 2} {keyOk : Bool} {i : Instr}
    (h : cfCommandOperation cst ph a op keyOk = .ok i) : inputOf i = .cfCmd := by
  cases cst with
  | idle =>
    simp only [cfCommandOperation] at h
    split_ifs at h <;> cases h <;> rfl
  | hsWait | stream | done | fail | reserved5 | reserved6 | reserved7 => cases h

/-- CF's internal vector, where it picks an operation, picks a send (R132, `SRC = 00`). -/
theorem inputOf_cfInternalOperation {cst : CfSt} {ph a more : Bool} {i : Instr}
    (h : cfInternalOperation cst ph a more = .ok i) : inputOf i = .cfInternal := by
  cases cst with
  | stream => cases ph <;> cases a <;> cases more <;> cases h <;> rfl
  | idle | hsWait | done | fail | reserved5 | reserved6 | reserved7 => cases h

end Sys2Proof.Machine
end

section
/-! SUPPORT. Everything an instruction can do to the state, and when a unit's move takes its word or holds.
Then the statements about readiness and about what an operation leaves alone. -/

namespace Sys2Proof.Machine

/-! ### What an instruction writes -/

section Writes
variable {s t : State}

/-- POL_ILLEGAL writes SE, and not its input channel (R220, R221). -/
theorem execPolIllegal_cases (h : execPolIllegal s = .next t) :
    ∃ u : SE, u.rx = s.se.rx ∧ t = { s with se := u } := by
  unfold execPolIllegal at h
  split at h
  · cases h; refine ⟨_, ?_, rfl⟩; rfl
  · split at h
    · cases h; refine ⟨_, ?_, rfl⟩; exact SE.close_rx _ _
    · cases h; exact ⟨_, rfl, rfl⟩

/-- An SE step writes SE alone, and takes at most the oldest word of `SE.rx`. -/
theorem seTake_writes {need : SE → NetWord → Nat} {act : SE → NetWord → SE}
    (hrx : ∀ u w, (act u w).rx = u.rx) (h : seTake need act s = .next t) :
    ∃ u : SE, u.rx <:+ s.se.rx ∧ t = { s with se := u } := by
  rcases seTake_cases h with rfl | ⟨w, rest, hw, -, rfl⟩
  · exact ⟨_, List.suffix_rfl, rfl⟩
  · refine ⟨_, ?_, rfl⟩
    rw [hrx, hw]
    exact List.suffix_cons w rest

/-- What CF's steps write of the state: CF alone; at most the oldest word of `CF.nrx` is taken, and CF does not
return to IDLE. -/
def CfWrites (s t : State) : Prop :=
  ∃ c : CF, c.nrx <:+ s.cf.nrx ∧ (s.cf.cst ≠ .idle → c.cst ≠ .idle) ∧ t = { s with cf := c }

theorem CfWrites.refl (s : State) : CfWrites s s := ⟨s.cf, List.suffix_rfl, id, rfl⟩

theorem cfTakeNet_writes {net res : CF → Nat} {act : CF → NetWord → CF}
    (hkeep : ∀ (c : CF) w, c.KeepsInputs (act c w)) (h : cfTakeNet net res act s = .next t) :
    CfWrites s t := by
  rcases cfTakeNet_cases h with rfl | ⟨w, rest, hw, -, rfl⟩
  · exact .refl _
  · refine ⟨_, ?_, ?_, rfl⟩
    · rw [(hkeep _ w).nrx, hw]
      exact List.suffix_cons w rest
    · exact (hkeep { s.cf with nrx := rest } w).started

theorem cfTakeCommand_writes {net res : CF → Nat} {act : CF → CmdWord → CF}
    (hkeep : ∀ (c : CF) w, c.KeepsInputs (act c w)) (h : cfTakeCommand net res act s = .next t) :
    CfWrites s t := by
  rcases cfTakeCommand_cases h with rfl | ⟨w, rest, -, -, rfl⟩
  · exact .refl _
  · refine ⟨_, ?_, ?_, rfl⟩
    · rw [(hkeep _ w).nrx]
    · exact (hkeep { s.cf with cmd := rest } w).started

theorem cfSend_writes {act : CF → CF} (hkeep : ∀ c : CF, c.KeepsInputs (act c))
    (h : cfSend act s = .next t) : CfWrites s t := by
  rcases cfSend_cases h with rfl | ⟨-, rfl⟩
  · exact .refl _
  · refine ⟨_, ?_, ?_, rfl⟩
    · rw [(hkeep _).nrx]
    · exact (hkeep _).started

/-- Everything an instruction that does not stop can write: one unit, or the nets (R100). -/
theorem exec_writes {i : Instr} (h : exec i s = .next t) :
    ((inputOf i = .seRx ∨ inputOf i = .policyRegister) ∧
      ∃ u : SE, u.rx <:+ s.se.rx ∧ t = { s with se := u }) ∨
    ((inputOf i = .cfNrx ∨ inputOf i = .cfCmd ∨ inputOf i = .cfInternal) ∧ CfWrites s t) ∨
    (inputOf i = .nets ∧ ∃ k : Comb, t = { s with comb := k }) := by
  have hop := exec_operation i s
  generalize inputOf i = place at hop ⊢
  cases hop with
  | seRx hexec hrx => exact .inl ⟨.inl rfl, seTake_writes hrx (hexec ▸ h)⟩
  | cfNrx hexec hkeep => exact .inr (.inl ⟨.inl rfl, cfTakeNet_writes hkeep (hexec ▸ h)⟩)
  | cfCmd hexec hkeep =>
    exact .inr (.inl ⟨.inr (.inl rfl), cfTakeCommand_writes hkeep (hexec ▸ h)⟩)
  | cfInternal hexec _ _ hkeep =>
    exact .inr (.inl ⟨.inr (.inr rfl), cfSend_writes hkeep (hexec ▸ h)⟩)
  | nets hexec => cases hexec.symm.trans h; exact .inr (.inr ⟨rfl, _, rfl⟩)
  | policyRegister hexec =>
    obtain ⟨u, hrx, rfl⟩ := execPolIllegal_cases (hexec ▸ h)
    exact .inl ⟨.inr rfl, u, hrx ▸ List.suffix_rfl, rfl⟩
  | unreachable hexec => cases hexec.symm.trans h

end Writes

/-- Settles O43, by the three things an instruction can write; a format whose place is not the one written is
not the instruction's. -/
theorem operationsKeepToTheirUnit : Obligations.OperationsKeepToTheirUnit := by
  intro i s t h
  have hse := @inputOf_of_seDv i
  have hcf := @inputOf_of_cfDv i
  have hbyte := @inputOf_of_byte i
  have hdir := @inputOf_of_cfgDir i
  have hpol := @inputOf_of_cfgPol i
  rcases exec_writes h with ⟨hi, u, -, rfl⟩ | ⟨hi, c, -, -, rfl⟩ | ⟨hi, k, rfl⟩
  all_goals refine ⟨rfl, rfl, rfl, rfl, rfl, rfl, rfl, rfl, ?_⟩
  · rcases hi with hi | hi <;> simp_all
  · rcases hi with hi | hi | hi <;> simp_all
  · simp_all

/-! ### Holds for want of room (R89) -/

section Holds
variable {s : State}

theorem seTake_noRoom {need : SE → NetWord → Nat} {act : SE → NetWord → SE} {w : NetWord}
    {rest : List NetWord} (hw : s.se.rx = w :: rest)
    (hroom : ¬s.se.tx.length + need s.se w ≤ s.params.obuf) : seTake need act s = .next s := by
  simp [seTake, hw, hroom]

theorem cfTakeNet_noRoom {net res : CF → Nat} {act : CF → NetWord → CF}
    (hroom : s.cf.hasRoom s.params (net s.cf) (res s.cf) = false) :
    cfTakeNet net res act s = .next s := by
  unfold cfTakeNet
  split <;> simp [hroom]

theorem cfTakeCommand_noRoom {net res : CF → Nat} {act : CF → CmdWord → CF}
    (hroom : s.cf.hasRoom s.params (net s.cf) (res s.cf) = false) :
    cfTakeCommand net res act s = .next s := by
  unfold cfTakeCommand
  split <;> simp [hroom]

theorem cfSend_noRoom {act : CF → CF} (hroom : s.cf.hasRoom s.params 1 0 = false) :
    cfSend act s = .next s := by
  simp [cfSend, hroom]

/-- An operation of CF holds while its output channels have no room for the words it writes (R253). -/
theorem exec_cf_noRoom {i : Instr}
    (hi : inputOf i = .cfNrx ∨ inputOf i = .cfCmd ∨ inputOf i = .cfInternal)
    (hroom : s.cf.hasRoom s.params (cfWordsWritten i s.cf).1 (cfWordsWritten i s.cf).2 = false) :
    exec i s = .next s := by
  have hop := exec_operation i s
  rcases hi with hi | hi | hi <;> rw [hi] at hop
  · cases hop with
    | cfNrx hexec _ => rw [hexec]; exact cfTakeNet_noRoom hroom
  · cases hop with
    | cfCmd hexec _ => rw [hexec]; exact cfTakeCommand_noRoom hroom
  · cases hop with
    | cfInternal hexec hwords _ _ =>
      rw [hwords] at hroom
      rw [hexec]; exact cfSend_noRoom hroom

end Holds

/-! ### SE's move -/

/-- SE's move runs the operation its vector picks for the oldest word (R130). -/
theorem doMove_se {s : State} {w : NetWord} {rest : List NetWord} (hw : s.se.rx = w :: rest) :
    doMove .se s = exec (decodeSe (s.se.vector w)) s :=
  unitStep_decoded (v := .seDv (s.se.vector w)) (by simp [presented, hw]) rfl

theorem seRxReady_iff {s : State} {w : NetWord} {rest : List NetWord} (hw : s.se.rx = w :: rest) :
    seRxReady s = true ↔ s.se.st ≠ .reserved ∧
      s.se.tx.length + seWordsWritten (decodeSe (s.se.vector w)) s.se w ≤ s.params.obuf := by
  simp [seRxReady, hw]

/-- Outside `ST = 11` SE's move is a `seTake` with the room that `rx_ready` asks for. -/
theorem doMove_se_seTake {s : State} {w : NetWord} {rest : List NetWord} (hw : s.se.rx = w :: rest)
    (hst : s.se.st ≠ .reserved) :
    ∃ act : SE → NetWord → SE, (∀ u w, (act u w).rx = u.rx) ∧
      doMove .se s = seTake (seWordsWritten (decodeSe (s.se.vector w))) act s := by
  have hop := exec_operation (decodeSe (s.se.vector w)) s
  rw [decodeSe_vector, inputOf_seOperation hst, ← decodeSe_vector] at hop
  cases hop with
  | seRx hexec hrx => exact ⟨_, hrx, (doMove_se hw).trans hexec⟩

/-- Settles O31, by the room for the words of the operation picked. -/
theorem serverTakesWhenReady : Obligations.ServerTakesWhenReady := by
  refine fun s w rest hw => ⟨fun hready => ?_, fun hready hst => ?_⟩
  · obtain ⟨hst, hroom⟩ := (seRxReady_iff hw).mp hready
    obtain ⟨act, hrx, hmove⟩ := doMove_se_seTake hw hst
    exact ⟨_, hmove.trans (seTake_enabled hw hroom), hrx _ _⟩
  · obtain ⟨act, -, hmove⟩ := doMove_se_seTake hw hst
    refine hmove.trans (seTake_noRoom hw fun hroom => ?_)
    cases hready.symm.trans ((seRxReady_iff hw).mpr ⟨hst, hroom⟩)

/-! ### CF's moves -/

section Client
variable {s : State} {m : Move} {i : Instr}

/-- A move of CF is enabled when its word picks an operation that has room for its words (R89, R132). -/
theorem cfEnabled_eq_some_iff :
    cfEnabled m s = some i ↔ ∃ v, presented m s = some v ∧ decode v = .ok i ∧
      s.cf.hasRoom s.params (cfWordsWritten i s.cf).1 (cfWordsWritten i s.cf).2 = true := by
  cases hv : presented m s with
  | none => simp [cfEnabled, hv]
  | some v =>
    cases hd : decode v with
    | error r => simp [cfEnabled, hv, hd]
    | ok j =>
      simp only [cfEnabled, hv, hd]
      constructor
      · intro h
        obtain ⟨hroom, hj⟩ := Option.ite_none_right_eq_some.mp h
        cases hj
        exact ⟨v, rfl, hd, hroom⟩
      · rintro ⟨_, ⟨⟩, hd', hroom⟩
        cases hd.symm.trans hd'
        exact if_pos hroom

/-- The operation a net word picks works on the head of `CF.nrx`. -/
theorem inputOf_cfNet {v : InstrWord} (hv : presented .cfNet s = some v) (hd : decode v = .ok i) :
    inputOf i = .cfNrx := by
  obtain ⟨w, -, rfl⟩ := Option.map_eq_some_iff.mp hv
  exact inputOf_cfNetOperation ((decodeCf_netVector s.cf w).symm.trans hd)

/-- The operation a command picks works on the head of `CF.cmd`. -/
theorem inputOf_cfCommand {v : InstrWord} (hv : presented .cfCommand s = some v)
    (hd : decode v = .ok i) : inputOf i = .cfCmd := by
  obtain ⟨w, -, rfl⟩ := Option.map_eq_some_iff.mp hv
  exact inputOf_cfCommandOperation ((decodeCf_commandVector s.cf w).symm.trans hd)

/-- The operation CF's internal vector picks is a send. -/
theorem inputOf_cfInternal {v : InstrWord} (hv : presented .cfInternal s = some v)
    (hd : decode v = .ok i) : inputOf i = .cfInternal := by
  obtain rfl := Option.some.inj hv
  exact inputOf_cfInternalOperation ((decodeCf_internalVector s.cf).symm.trans hd)

/-- An enabled move of CF runs its operation. -/
theorem unitStep_of_cfEnabled (hpresent : present m s = s) (h : cfEnabled m s = some i) :
    unitStep m s = exec i s := by
  obtain ⟨v, hv, hd, -⟩ := cfEnabled_eq_some_iff.mp h
  rw [unitStep_decoded hv hd, hpresent]

/-- A move of CF that is not enabled holds: no word, no row, or no room (R89, R132, R253). -/
theorem unitStep_of_not_cfEnabled (hpresent : present m s = s)
    (hinput : ∀ v i, presented m s = some v → decode v = .ok i →
      inputOf i = .cfNrx ∨ inputOf i = .cfCmd ∨ inputOf i = .cfInternal)
    (h : cfEnabled m s = none) : unitStep m s = .next s := by
  unfold unitStep
  split
  · rfl
  · next v hv =>
    split
    · next i hd =>
      have hroom : ¬_ = true := fun hroom =>
        Option.eq_none_iff_forall_ne_some.mp h i (cfEnabled_eq_some_iff.mpr ⟨v, hv, hd, hroom⟩)
      rw [hpresent]
      exact exec_cf_noRoom (hinput v i hv hd) (Bool.eq_false_iff.mpr hroom)
    · rfl

theorem doMove_cfNet_of_not_enabled (h : cfEnabled .cfNet s = none) : doMove .cfNet s = .next s :=
  unitStep_of_not_cfEnabled rfl (fun _ _ hv hd => .inl (inputOf_cfNet hv hd)) h

theorem doMove_cfCommand_of_not_enabled (h : cfEnabled .cfCommand s = none) :
    doMove .cfCommand s = .next s :=
  unitStep_of_not_cfEnabled rfl (fun _ _ hv hd => .inr (.inl (inputOf_cfCommand hv hd))) h

theorem doMove_cfInternal_of_not_enabled (h : cfEnabled .cfInternal s = none) :
    doMove .cfInternal s = .next s :=
  unitStep_of_not_cfEnabled rfl (fun _ _ hv hd => .inr (.inr (inputOf_cfInternal hv hd))) h

/-- An enabled net move takes the oldest word of `CF.nrx`. -/
theorem doMove_cfNet_takes {w : NetWord} {rest : List NetWord} (hw : s.cf.nrx = w :: rest)
    (h : (cfEnabled .cfNet s).isSome = true) : ∃ t, doMove .cfNet s = .next t ∧ t.cf.nrx = rest := by
  obtain ⟨i, hi⟩ := Option.isSome_iff_exists.mp h
  obtain ⟨v, hv, hd, hroom⟩ := cfEnabled_eq_some_iff.mp hi
  have hop := exec_operation i s
  rw [inputOf_cfNet hv hd] at hop
  cases hop with
  | cfNrx hexec hkeep =>
    exact ⟨_, ((unitStep_of_cfEnabled rfl hi).trans hexec).trans (cfTakeNet_enabled hw hroom),
      (hkeep _ _).nrx⟩

/-- An enabled command move takes the oldest word of `CF.cmd`. -/
theorem doMove_cfCommand_takes {w : CmdWord} {rest : List CmdWord} (hw : s.cf.cmd = w :: rest)
    (h : (cfEnabled .cfCommand s).isSome = true) :
    ∃ t, doMove .cfCommand s = .next t ∧ t.cf.cmd = rest := by
  obtain ⟨i, hi⟩ := Option.isSome_iff_exists.mp h
  obtain ⟨v, hv, hd, hroom⟩ := cfEnabled_eq_some_iff.mp hi
  have hop := exec_operation i s
  rw [inputOf_cfCommand hv hd] at hop
  cases hop with
  | cfCmd hexec hkeep =>
    exact ⟨_, ((unitStep_of_cfEnabled rfl hi).trans hexec).trans (cfTakeCommand_enabled hw hroom),
      (hkeep _ _).cmd⟩

/-- An enabled internal move has room in `CF.ntx` for the one word it writes there. -/
theorem doMove_cfInternal_sends (h : (cfEnabled .cfInternal s).isSome = true) :
    s.cf.ntx.length < s.params.obuf ∧
      ∃ t w, doMove .cfInternal s = .next t ∧ t.cf.ntx = s.cf.ntx ++ [w] := by
  obtain ⟨i, hi⟩ := Option.isSome_iff_exists.mp h
  obtain ⟨v, hv, hd, hroom⟩ := cfEnabled_eq_some_iff.mp hi
  have hop := exec_operation i s
  rw [inputOf_cfInternal hv hd] at hop
  cases hop with
  | cfInternal hexec hwords hntx hkeep =>
    rw [hwords] at hroom
    obtain ⟨w, hw⟩ := hntx s.cf
    exact ⟨((CF.hasRoom_iff _ _ _ _).mp hroom).1, _, w,
      ((unitStep_of_cfEnabled rfl hi).trans hexec).trans (cfSend_enabled hroom), hw⟩

end Client

/-- Settles O32, source by source. -/
theorem clientTakesWhenReady : Obligations.ClientTakesWhenReady := by
  refine ⟨fun s w rest hw => ⟨doMove_cfNet_takes hw, doMove_cfNet_of_not_enabled⟩,
    fun s w rest hw => ⟨doMove_cfCommand_takes hw, doMove_cfCommand_of_not_enabled⟩, fun s =>
    ⟨fun h => (doMove_cfInternal_sends h).2, doMove_cfInternal_of_not_enabled, fun hfull => ?_,
      fun hcmd => ?_⟩⟩
  · have hnone : cfEnabled .cfInternal s = none :=
      Option.not_isSome_iff_eq_none.mp fun h =>
        absurd (doMove_cfInternal_sends h).1 (Nat.not_lt.mpr hfull)
    exact ⟨hnone, doMove_cfInternal_of_not_enabled hnone⟩
  · simp [doMove, unitStep, presented, hcmd]

end Sys2Proof.Machine
end

section
/-! SUPPORT. The source buffers as the host's placing leaves them, and when a session is in progress. Then
the statement about a placed byte. -/

namespace Sys2Proof.Machine

@[simp] theorem State.setSpace_space (s : State) (space : Space) (m : Memory) :
    (s.setSpace space m).space space = m := by
  cases space <;> rfl

theorem State.setSpace_space_of_ne (s : State) {space sp : Space} (m : Memory) (h : sp ≠ space) :
    (s.setSpace space m).space sp = s.space sp := by
  cases space <;> cases sp
  exacts [absurd rfl h, rfl, rfl, absurd rfl h]

/-- When the host may place no byte (R82, R313). -/
theorem State.inSession_iff (s : State) :
    s.inSession = true ↔
      s.cf.cst = .hsWait ∨ s.cf.cst = .stream ∨
        (s.cf.cst = .idle ∧ ∃ w ∈ s.cf.cmd, w.op = opStart) := by
  simp only [State.inSession, State.startWaits, Bool.or_eq_true, Bool.and_eq_true, beq_iff_eq,
    List.any_eq_true]
  rw [or_assoc, or_comm, or_assoc]

theorem place_noSuchIndex {s : State} {space : Space} {a : Nat} (b : Byte)
    (h : 2 ^ s.params.lenW ≤ a) : place space a b s = .fault (.noSuchIndex space a) := by
  simp [place, h]

theorem place_refused {s : State} (space : Space) {a : Nat} (b : Byte) (ha : a < 2 ^ s.params.lenW)
    (h : s.inSession = true) : place space a b s = .refused .bufferChangedInSession := by
  simp [place, Nat.not_le.mpr ha, h]

theorem place_enabled {s : State} (space : Space) {a : Nat} (b : Byte) (ha : a < 2 ^ s.params.lenW)
    (h : s.inSession = false) :
    place space a b s = .next (s.setSpace space ((s.space space).write a b)) := by
  simp [place, Nat.not_le.mpr ha, h]

/-- Settles O49, by the three outcomes of a placing and the laws of a source buffer. -/
theorem placedByteIsRead : Obligations.PlacedByteIsRead := by
  intro s space a b
  refine ⟨place_noSuchIndex b, fun ha hsession => ?_, fun ha hwait hstream hidle => ?_⟩
  · exact place_refused space b ha (s.inSession_iff.mpr hsession)
  · have hout : s.inSession = false := by
      refine Bool.eq_false_iff.mpr fun h => ?_
      rcases s.inSession_iff.mp h with h | h | ⟨h, w, hw, hop⟩
      exacts [hwait h, hstream h, hidle h w hw hop]
    refine ⟨_, place_enabled space b ha hout, ?_, fun sp x hother => ?_⟩
    · rw [State.setSpace_space, Memory.read_write_same]
    · by_cases hsp : sp = space
      · subst hsp
        have hx : x ≠ a := hother.resolve_left (not_not.mpr rfl)
        rw [State.setSpace_space, Memory.read_write_other _ _ _ _ hx]
      · rw [State.setSpace_space_of_ne s _ hsp]

end Sys2Proof.Machine
end

section
/-! SUPPORT. The bytes of a direction, and what each move of the transport does when its condition holds
and when it does not. Then the statement that the transport keeps the stream. -/

namespace Sys2Proof.Machine

section Places
variable (s : State) (lane : Lane)

@[simp] theorem State.setWritten_written_other (ws : List NetWord) :
    (s.setWritten lane ws).written lane.other = s.written lane.other := by
  cases lane <;> rfl

/-- The two directions are all there are. -/
theorem Lane.eq_or_eq_other (k : Lane) : k = lane ∨ k = lane.other := by
  cases lane <;> cases k <;> simp [Lane.other]

theorem State.laneBytes_eq :
    s.laneBytes lane = byteData (s.readerChannel lane) ++ (s.lane lane).buf ++
      byteData (s.written lane) := by
  cases lane <;> rfl

theorem byteData_cons_byte {w : NetWord} (ws : List NetWord) (h : w.kind = .byte) :
    byteData (w :: ws) = w.data :: byteData ws := by
  simp [byteData, h]

theorem byteData_cons_close {w : NetWord} (ws : List NetWord) (h : w.kind = .close) :
    byteData (w :: ws) = byteData ws := by
  simp [byteData, h]

theorem State.readerFull_eq_false_iff :
    s.readerFull lane = false ↔
      ∀ k, s.readerRoom lane = some k → (byteData (s.readerChannel lane)).length < k := by
  unfold State.readerFull
  cases s.readerRoom lane <;> simp

theorem State.full_eq_true_iff :
    s.full lane = true ↔ ∃ k, s.netBuf lane = some k ∧ k ≤ (s.lane lane).buf.length := by
  unfold State.full
  cases s.netBuf lane <;> simp

end Places

/-! ### The bytes of a direction (R92) -/

section Bytes
variable (s : State) (lane k : Lane)

theorem carry_laneBytes : (carry lane s).laneBytes k = s.laneBytes k := by
  rcases carry_cases lane s with h | ⟨w, rest, hw, -, -, ⟨hkind, h⟩ | ⟨hkind, h⟩⟩ <;> rw [h]
  all_goals obtain rfl | rfl := Lane.eq_or_eq_other lane k
  all_goals simp [State.laneBytes_eq, *, byteData_cons_byte, byteData_cons_close]

theorem deliver_laneBytes (last : Bool) : (deliver lane last s).laneBytes k = s.laneBytes k := by
  rcases deliver_cases lane s last with h | ⟨b, rest, hb, -, -, -, h⟩ <;> rw [h]
  obtain rfl | rfl := Lane.eq_or_eq_other lane k <;> simp [State.laneBytes_eq, hb]

theorem deliverEof_laneBytes : (deliverEof lane s).laneBytes k = s.laneBytes k := by
  rcases deliverEof_cases lane s with h | ⟨-, -, -, -, h⟩ <;> rw [h]
  obtain rfl | rfl := Lane.eq_or_eq_other lane k <;> simp [State.laneBytes_eq]

theorem deliverErr_laneBytes : (deliverErr lane s).laneBytes k = s.laneBytes k := by
  rcases deliverErr_cases lane s with h | ⟨-, h⟩ <;> rw [h]
  obtain rfl | rfl := Lane.eq_or_eq_other lane k <;> simp [State.laneBytes_eq]

end Bytes

/-! ### The moves of the transport, condition by condition -/

section Moves
variable {s : State} {lane : Lane}

theorem carry_full (h : s.full lane = true) : carry lane s = s := by
  unfold carry
  split <;> simp [h]

theorem carry_byte {w : NetWord} {rest : List NetWord} (hw : s.written lane = w :: rest)
    (hfull : s.full lane = false) (hopen : (s.lane lane).closed = false) (hkind : w.kind = .byte) :
    carry lane s = (s.setWritten lane rest).setLane lane
      { s.lane lane with buf := (s.lane lane).buf ++ [w.data] } := by
  simp [carry, hw, hfull, hopen, hkind]

theorem carry_close {w : NetWord} {rest : List NetWord} (hw : s.written lane = w :: rest)
    (hfull : s.full lane = false) (hopen : (s.lane lane).closed = false) (hkind : w.kind = .close) :
    carry lane s = (s.setWritten lane rest).setLane lane { s.lane lane with closed := true } := by
  simp [carry, hw, hfull, hopen, hkind]

theorem deliver_enabled {b : Byte} {rest : List Byte} {last : Bool}
    (hb : (s.lane lane).buf = b :: rest) (hended : (s.lane lane).ended = false)
    (hroom : s.readerFull lane = false)
    (hread : last = true ∨ (s.lane lane).chunkLen + 1 < s.params.rxCap) :
    deliver lane last s = (s.pushRead lane (byteWord last b)).setLane lane
      { s.lane lane with
        buf := rest, chunkLen := if last then 0 else (s.lane lane).chunkLen + 1 } := by
  simp [deliver, hb, hended, hroom, hread]

/-- The transport delivers nothing after the end, nothing into a full channel, and ends a read at `RX_CAP`
(R96, R88, R93). -/
theorem deliver_disabled {last : Bool}
    (h : (s.lane lane).ended = true ∨ s.readerFull lane = true ∨
      (last = false ∧ s.params.rxCap ≤ (s.lane lane).chunkLen + 1)) :
    deliver lane last s = s := by
  rcases deliver_cases lane s last with heq | ⟨b, rest, -, hended, hroom, hread, -⟩
  · exact heq
  · rcases h with h | h | ⟨rfl, hcap⟩
    · simp [h] at hended
    · simp [h] at hroom
    · rcases hread with hread | hread
      · cases hread
      · omega

theorem deliverEof_enabled (hclosed : (s.lane lane).closed = true) (hbuf : (s.lane lane).buf = [])
    (hended : (s.lane lane).ended = false) (hstart : s.readerStarted lane = true) :
    deliverEof lane s = (s.pushRead lane eofWord).setLane lane { s.lane lane with ended := true } := by
  simp [deliverEof, hclosed, hbuf, hended, hstart]

theorem deliverEof_disabled
    (h : (s.lane lane).closed = false ∨ (s.lane lane).buf ≠ [] ∨ (s.lane lane).ended = true ∨
      s.readerStarted lane = false) : deliverEof lane s = s := by
  rcases deliverEof_cases lane s with heq | ⟨hclosed, hbuf, hended, hstart, -⟩
  · exact heq
  · simp [hclosed, hbuf, hended, hstart] at h

theorem deliverErr_enabled (h : (s.lane lane).ended = false) :
    deliverErr lane s = (s.pushRead lane ioerrWord).setLane lane { s.lane lane with ended := true } := by
  simp [deliverErr, h]

theorem deliverErr_disabled (h : (s.lane lane).ended = true) : deliverErr lane s = s := by
  simp [deliverErr, h]

theorem dropWord_byte {b : Byte} {rest : List Byte} (hclosed : s.readerClosed lane = true)
    (hb : (s.lane lane).buf = b :: rest) :
    dropWord lane s = s.setLane lane { s.lane lane with buf := rest } := by
  simp [dropWord, hclosed, hb]

theorem dropWord_written (hclosed : s.readerClosed lane = true) (hb : (s.lane lane).buf = [])
    (hreset : (s.lane lane).writerReset = false) :
    dropWord lane s = s.setWritten lane (s.written lane).tail := by
  simp [dropWord, hclosed, hb, hreset]

theorem dropWord_writerReset (hb : (s.lane lane).buf = [])
    (hreset : (s.lane lane).writerReset = true) : dropWord lane s = s := by
  simp [dropWord, hb, hreset]

theorem dropWord_open (h : s.readerClosed lane = false) : dropWord lane s = s := by
  simp [dropWord, h]

end Moves

/-- Settles O50: the bytes of both directions move by move, and each move where its condition holds. -/
theorem transportKeepsTheStream : Obligations.TransportKeepsTheStream := by
  intro s lane
  refine ⟨?bytes, fun w rest hw hfull hopen => ⟨?takesByte, ?takesClose⟩,
    fun b rest last hb hended hroom => ⟨?delivers, ?endsRead⟩, ?waits⟩
  case bytes =>
    rintro t m (rfl | rfl | rfl | rfl | rfl) h <;> cases h
    · exact ⟨carry_laneBytes s lane _, carry_laneBytes s lane _⟩
    · exact ⟨deliver_laneBytes s lane _ _, deliver_laneBytes s lane _ _⟩
    · exact ⟨deliver_laneBytes s lane _ _, deliver_laneBytes s lane _ _⟩
    · exact ⟨deliverEof_laneBytes s lane _, deliverEof_laneBytes s lane _⟩
    · exact ⟨deliverErr_laneBytes s lane _, deliverErr_laneBytes s lane _⟩
  case takesByte => exact fun hkind => congrArg _ (carry_byte hw hfull hopen hkind)
  case takesClose => exact fun hkind => congrArg _ (carry_close hw hfull hopen hkind)
  case delivers =>
    exact fun hread => congrArg _
      (deliver_enabled hb hended ((s.readerFull_eq_false_iff lane).mpr hroom) hread)
  case endsRead =>
    intro hcap
    exact congrArg _ (deliver_disabled (.inr (.inr ⟨rfl, hcap⟩)))
  case waits =>
    intro k last hk hle
    have hfull : s.readerFull lane = true := by simp [State.readerFull, hk, hle]
    exact congrArg _ (deliver_disabled (.inr (.inl hfull)))

end Sys2Proof.Machine
end

section
/-! SUPPORT. One step as a direction of the transport sees it whose writer has closed: as long as neither its
end nor a new connection comes, it only drains towards its reader. -/

namespace Sys2Proof.Machine

/-! ### What a direction has of the state beside its writer's channel -/

/-- A direction of the transport and its reader: all that decides what can be delivered and dropped of the
bytes held. -/
def State.readerView (s : State) (lane : Lane) : LaneState × List NetWord × Option Nat × Bool × Bool :=
  (s.lane lane, s.readerChannel lane, s.readerRoom lane, s.readerStarted lane, s.bench)

section Views
variable (s : State) (lane k : Lane)

@[simp] theorem State.setLane_readerStarted (l : LaneState) :
    (s.setLane lane l).readerStarted k = s.readerStarted k := by
  cases lane <;> cases k <;> rfl
@[simp] theorem State.setWritten_readerStarted (ws : List NetWord) :
    (s.setWritten lane ws).readerStarted k = s.readerStarted k := by
  cases lane <;> cases k <;> rfl
@[simp] theorem State.pushRead_readerStarted (w : NetWord) :
    (s.pushRead lane w).readerStarted k = s.readerStarted k := by
  cases lane <;> cases k <;> rfl
@[simp] theorem State.pushRead_other_readerChannel (w : NetWord) :
    (s.pushRead lane.other w).readerChannel lane = s.readerChannel lane := by
  cases lane <;> rfl

/-- EOF may reach SE at any time, and CF once it has left IDLE (R132, R289). -/
theorem readerStarted_of_imp {s : State} {lane : Lane} (h : lane = .s2c → s.cf.cst ≠ .idle) :
    s.readerStarted lane = true := by
  cases lane with
  | c2s => rfl
  | s2c => simpa [State.readerStarted] using h rfl

theorem State.setWritten_readerView (ws : List NetWord) :
    (s.setWritten k ws).readerView lane = s.readerView lane := by
  simp [State.readerView]

theorem State.setSpace_readerView (space : Space) (m : Memory) :
    (s.setSpace space m).readerView lane = s.readerView lane := by
  cases space <;> cases lane <;> rfl

theorem sendCommand_readerView (bits : Nat) :
    (sendCommand bits s).readerView lane = s.readerView lane := by
  rcases sendCommand_cases s bits with h | ⟨w, -, -, h⟩ <;> rw [h]
  cases lane <;> rfl

/-! The moves of the transport in one direction leave the other as it is (R92). -/

theorem carry_other_readerView : (carry lane.other s).readerView lane = s.readerView lane := by
  rcases carry_cases lane.other s with h | ⟨w, rest, -, -, -, ⟨-, h⟩ | ⟨-, h⟩⟩ <;> rw [h] <;>
    simp [State.readerView]

theorem deliver_other_readerView (last : Bool) :
    (deliver lane.other last s).readerView lane = s.readerView lane := by
  rcases deliver_cases lane.other s last with h | ⟨b, rest, -, -, -, -, h⟩ <;> rw [h]
  simp [State.readerView]

theorem deliverEof_other_readerView :
    (deliverEof lane.other s).readerView lane = s.readerView lane := by
  rcases deliverEof_cases lane.other s with h | ⟨-, -, -, -, h⟩ <;> rw [h]
  simp [State.readerView]

theorem deliverErr_other_readerView :
    (deliverErr lane.other s).readerView lane = s.readerView lane := by
  rcases deliverErr_cases lane.other s with h | ⟨-, h⟩ <;> rw [h]
  simp [State.readerView]

theorem dropWord_other_readerView : (dropWord lane.other s).readerView lane = s.readerView lane := by
  rcases dropWord_cases lane.other s with h | ⟨-, ⟨b, rest, -, h⟩ | ⟨-, -, h⟩⟩ <;> rw [h]
  · simp [State.readerView]
  · exact State.setWritten_readerView ..

end Views

/-! ### The steps of a closed direction -/

/-- What a step leaves of a closed direction: it stays closed; a CF that has left IDLE stays out; and fewer bytes
are held, or the same bytes with no more in the reader's channel. -/
structure ClosedStep (lane : Lane) (s t : State) : Prop where
  closed : (t.lane lane).closed = true
  bench : t.bench = false
  room : t.readerRoom lane = s.readerRoom lane
  started : s.readerStarted lane = true → t.readerStarted lane = true
  drains : (t.lane lane).buf.length < (s.lane lane).buf.length ∨
    ((t.lane lane).buf = (s.lane lane).buf ∧
      (byteData (t.readerChannel lane)).length ≤ (byteData (s.readerChannel lane)).length)

section Steps
variable {s t : State} {lane : Lane} (hclosed : (s.lane lane).closed = true) (hbench : s.bench = false)
include hclosed hbench

theorem ClosedStep.of_readerView_eq (h : t.readerView lane = s.readerView lane) :
    ClosedStep lane s t := by
  simp only [State.readerView, Prod.mk.injEq] at h
  obtain ⟨hlane, hchannel, hroom, hstarted, hb⟩ := h
  exact ⟨by rw [hlane, hclosed], by rw [hb, hbench], hroom, by rw [hstarted]; exact id,
    .inr ⟨by rw [hlane], by rw [hchannel]⟩⟩

/-- A step of a unit takes words from its channels and writes nothing of the transport. -/
theorem unitStep_closedStep {m : Move} (h : unitStep m s = .next t) : ClosedStep lane s t := by
  rcases unitStep_cases h with rfl | ⟨v, i, -, -, he⟩
  · exact .of_readerView_eq hclosed hbench rfl
  · have hpresent : ∃ k : Comb, present m s = { s with comb := k } := by cases m <;> exact ⟨_, rfl⟩
    obtain ⟨k, hk⟩ := hpresent
    rw [hk] at he
    rcases exec_writes he with ⟨-, u, hrx, rfl⟩ | ⟨-, c, hnrx, hcst, rfl⟩ | ⟨-, k, rfl⟩
    · cases lane with
      | c2s => exact ⟨hclosed, hbench, rfl, id, .inr ⟨rfl, byteData_length_le_of_suffix hrx⟩⟩
      | s2c => exact .of_readerView_eq hclosed hbench rfl
    · cases lane with
      | c2s => exact .of_readerView_eq hclosed hbench rfl
      | s2c =>
        refine ⟨hclosed, hbench, rfl, fun hs => ?_, .inr ⟨rfl, byteData_length_le_of_suffix hnrx⟩⟩
        simp only [State.readerStarted, bne_iff_ne] at hs ⊢
        exact hcst hs
    · exact .of_readerView_eq hclosed hbench (by cases lane <;> rfl)

/-- A closed direction takes no more from its writer (R94). -/
theorem carry_closedStep : ClosedStep lane s (carry lane s) := by
  rcases carry_cases lane s with h | ⟨w, rest, -, -, hopen, -⟩
  · exact .of_readerView_eq hclosed hbench (by rw [h])
  · cases hclosed.symm.trans hopen

theorem deliver_closedStep (last : Bool) : ClosedStep lane s (deliver lane last s) := by
  rcases deliver_cases lane s last with h | ⟨b, rest, hb, -, -, -, h⟩ <;> rw [h]
  · exact .of_readerView_eq hclosed hbench rfl
  · exact ⟨by simp [hclosed], by simp [hbench], by simp, by simp, .inl (by simp [hb])⟩

theorem dropWord_closedStep : ClosedStep lane s (dropWord lane s) := by
  rcases dropWord_cases lane s with h | ⟨-, ⟨b, rest, hb, h⟩ | ⟨-, -, h⟩⟩ <;> rw [h]
  · exact .of_readerView_eq hclosed hbench rfl
  · exact ⟨by simp [hclosed], by simp [hbench], by simp, by simp, .inl (by simp [hb])⟩
  · exact .of_readerView_eq hclosed hbench (State.setWritten_readerView ..)

/-- Unless it ends the direction, a delivery of EOF or IOERR does nothing. -/
theorem deliverEof_closedStep (hended : ((deliverEof lane s).lane lane).ended = false) :
    ClosedStep lane s (deliverEof lane s) := by
  rcases deliverEof_cases lane s with h | ⟨-, -, -, -, h⟩ <;> rw [h] at hended ⊢
  · exact .of_readerView_eq hclosed hbench rfl
  · simp at hended

theorem deliverErr_closedStep (hended : ((deliverErr lane s).lane lane).ended = false) :
    ClosedStep lane s (deliverErr lane s) := by
  rcases deliverErr_cases lane s with h | ⟨-, h⟩ <;> rw [h] at hended ⊢
  · exact .of_readerView_eq hclosed hbench rfl
  · simp at hended

theorem resetSe_closedStep (hended : ((resetSe s).lane lane).ended = false) :
    ClosedStep lane s (resetSe s) := by
  cases lane with
  | c2s => cases hended
  | s2c => exact ⟨rfl, hbench, rfl, id, .inr ⟨rfl, le_rfl⟩⟩

theorem resetCf_closedStep (hended : ((resetCf s).lane lane).ended = false) :
    ClosedStep lane s (resetCf s) := by
  cases lane with
  | c2s => exact ⟨rfl, hbench, rfl, id, .inr ⟨rfl, le_rfl⟩⟩
  | s2c => cases hended

theorem benchPut_closedStep (k : Lane) (w : NetWord) : ClosedStep lane s (benchPut k w s) := by
  rcases benchPut_cases k s w with h | ⟨hb, -⟩
  · exact .of_readerView_eq hclosed hbench (by rw [h])
  · cases hbench.symm.trans hb

theorem benchTake_closedStep (k : Lane) : ClosedStep lane s (benchTake k s) := by
  rcases benchTake_cases k s with h | ⟨hb, -⟩
  · exact .of_readerView_eq hclosed hbench (by rw [h])
  · cases hbench.symm.trans hb

/-- Every move but a connection, with the host of R98, as a closed direction sees it until its end. -/
theorem doMove_closedStep {m : Move} (h : doMove m s = .next t) (hconnect : m ≠ .connect)
    (hended : (t.lane lane).ended = false) : ClosedStep lane s t := by
  cases m with
  | se | cfCommand | cfNet | cfInternal | alpha | xform | policy =>
    simp only [doMove] at h
    exact unitStep_closedStep hclosed hbench h
  | pass | setSePorts | setCfPorts | takeRes | takeSeEv | takeCfEv =>
    cases h
    exact .of_readerView_eq hclosed hbench (by cases lane <;> rfl)
  | connect => exact absurd rfl hconnect
  | resetSe => cases h; exact resetSe_closedStep hclosed hbench hended
  | resetCf => cases h; exact resetCf_closedStep hclosed hbench hended
  | place =>
    obtain ⟨-, -, rfl⟩ := place_cases h
    exact .of_readerView_eq hclosed hbench (State.setSpace_readerView ..)
  | command bits =>
    cases h
    exact .of_readerView_eq hclosed hbench (sendCommand_readerView ..)
  | carry k =>
    cases h
    obtain rfl | rfl := Lane.eq_or_eq_other lane k
    · exact carry_closedStep hclosed hbench
    · exact .of_readerView_eq hclosed hbench (carry_other_readerView ..)
  | deliver k last =>
    cases h
    obtain rfl | rfl := Lane.eq_or_eq_other lane k
    · exact deliver_closedStep hclosed hbench last
    · exact .of_readerView_eq hclosed hbench (deliver_other_readerView ..)
  | deliverEof k =>
    cases h
    obtain rfl | rfl := Lane.eq_or_eq_other lane k
    · exact deliverEof_closedStep hclosed hbench hended
    · exact .of_readerView_eq hclosed hbench (deliverEof_other_readerView ..)
  | deliverErr k =>
    cases h
    obtain rfl | rfl := Lane.eq_or_eq_other lane k
    · exact deliverErr_closedStep hclosed hbench hended
    · exact .of_readerView_eq hclosed hbench (deliverErr_other_readerView ..)
  | drop k =>
    cases h
    obtain rfl | rfl := Lane.eq_or_eq_other lane k
    · exact dropWord_closedStep hclosed hbench
    · exact .of_readerView_eq hclosed hbench (dropWord_other_readerView ..)
  | benchRx w => cases h; exact benchPut_closedStep hclosed hbench .c2s w
  | benchNrx w => cases h; exact benchPut_closedStep hclosed hbench .s2c w
  | benchTx => cases h; exact benchTake_closedStep hclosed hbench .s2c
  | benchNtx => cases h; exact benchTake_closedStep hclosed hbench .c2s

end Steps

/-- A step that keeps the bytes held keeps the room in the reader's channel. -/
theorem ClosedStep.keeps_room {s t : State} {lane : Lane} (h : ClosedStep lane s t)
    (hbuf : (t.lane lane).buf = (s.lane lane).buf) (hroom : s.readerFull lane = false) :
    t.readerFull lane = false := by
  rcases h.drains with hlt | ⟨-, hle⟩
  · rw [hbuf] at hlt
    exact absurd hlt (lt_irrefl _)
  · rw [State.readerFull_eq_false_iff, h.room]
    exact fun k hk => lt_of_le_of_lt hle ((s.readerFull_eq_false_iff lane).mp hroom k hk)

/-! ### The moves that serve the transport's duties -/

section Serving
variable {s : State} {lane : Lane}

theorem deliver_shrinks {last : Bool} (h : deliver lane last s ≠ s) :
    ((deliver lane last s).lane lane).buf.length < (s.lane lane).buf.length := by
  rcases deliver_cases lane s last with heq | ⟨b, rest, hb, -, -, -, heq⟩
  · exact absurd heq h
  · rw [heq]; simp [hb]

theorem dropWord_shrinks (h : dropWord lane s ≠ s) (hbuf : (s.lane lane).buf ≠ []) :
    ((dropWord lane s).lane lane).buf.length < (s.lane lane).buf.length := by
  rcases dropWord_cases lane s with heq | ⟨-, ⟨b, rest, hb, heq⟩ | ⟨hb, -, -⟩⟩
  · exact absurd heq h
  · rw [heq]; simp [hb]
  · exact absurd hb hbuf

theorem deliverEof_ends (h : deliverEof lane s ≠ s) :
    ((deliverEof lane s).lane lane).ended = true := by
  rcases deliverEof_cases lane s with heq | ⟨-, -, -, -, heq⟩
  · exact absurd heq h
  · rw [heq]; simp

end Serving

/-! ### Endless runs (R98) -/

/-- A run in which the host keeps its duties and a closed direction neither ends nor is connected anew. There
are such runs (`neverEnds_of_full_reader`), but none in which the reader's channel has room again and again and
its unit has started (`NeverEnds.elim`). -/
structure NeverEnds (σ : Nat → State) (μ : Nat → Move) (lane : Lane) : Prop where
  duties : HostDuties σ μ
  closed : ((σ 0).lane lane).closed = true
  unended : ∀ j, ((σ j).lane lane).ended = false
  unconnected : ∀ j, μ j ≠ .connect

namespace NeverEnds
variable {σ : Nat → State} {μ : Nat → Move} {lane : Lane}

theorem closed_and_bench (h : NeverEnds σ μ lane) (j : Nat) :
    ((σ j).lane lane).closed = true ∧ (σ j).bench = false := by
  induction j with
  | zero => exact ⟨h.closed, h.duties.conforming⟩
  | succ j ih =>
    have hstep := doMove_closedStep ih.1 ih.2 (h.duties.run j) (h.unconnected j) (h.unended (j + 1))
    exact ⟨hstep.closed, hstep.bench⟩

theorem step (h : NeverEnds σ μ lane) (j : Nat) : ClosedStep lane (σ j) (σ (j + 1)) :=
  doMove_closedStep (h.closed_and_bench j).1 (h.closed_and_bench j).2 (h.duties.run j)
    (h.unconnected j) (h.unended (j + 1))

theorem started_of_le (h : NeverEnds σ μ lane) {k : Nat} (hk : (σ k).readerStarted lane = true)
    {j : Nat} (hj : k ≤ j) : (σ j).readerStarted lane = true := by
  induction j, hj using Nat.le_induction with
  | base => exact hk
  | succ j _ ih => exact (h.step j).started ih

/-- The bytes held settle: they only become fewer, and cannot do so for ever. -/
theorem exists_settled (h : NeverEnds σ μ lane) :
    ∃ k, ∀ j, k ≤ j → ((σ j).lane lane).buf = ((σ k).lane lane).buf := by
  obtain ⟨k, hmin⟩ : ∃ k, ∀ j,
      ((σ k).lane lane).buf.length ≤ ((σ j).lane lane).buf.length :=
    ⟨_, fun j => Function.argmin_le (fun j => ((σ j).lane lane).buf.length) j⟩
  refine ⟨k, fun j hj => ?_⟩
  induction j, hj using Nat.le_induction with
  | base => rfl
  | succ j _ ih =>
    rcases (h.step j).drains with hlt | ⟨heq, -⟩
    · rw [ih] at hlt
      exact absurd hlt (Nat.not_lt.mpr (hmin (j + 1)))
    · exact heq.trans ih

/-- Once the bytes have settled, a reader's channel with room keeps it: nothing else fills it. -/
theorem room_of_settled (h : NeverEnds σ μ lane) {k : Nat}
    (hk : ∀ j, k ≤ j → ((σ j).lane lane).buf = ((σ k).lane lane).buf)
    (hroom : (σ k).readerFull lane = false) {j : Nat} (hj : k ≤ j) :
    (σ j).readerFull lane = false := by
  induction j, hj using Nat.le_induction with
  | base => exact hroom
  | succ j hj ih =>
    exact (h.step j).keeps_room ((hk _ (Nat.le_succ_of_le hj)).trans (hk j hj).symm) ih

/-- Bytes that have settled, before a channel with room, are none: the next duty to deliver would shrink
them. -/
theorem buf_nil_of_settled (h : NeverEnds σ μ lane) {k : Nat}
    (hk : ∀ j, k ≤ j → ((σ j).lane lane).buf = ((σ k).lane lane).buf)
    (hroom : (σ k).readerFull lane = false) : ((σ k).lane lane).buf = [] := by
  by_contra hne
  obtain ⟨j, hj, hdue | ⟨hserves, hchange⟩⟩ := h.duties.delivers lane k
  · exact hdue ⟨(hk j hj).symm ▸ hne, .inl ⟨h.unended j, h.room_of_settled hk hroom hj⟩⟩
  · have hshrinks : ((σ (j + 1)).lane lane).buf.length < ((σ j).lane lane).buf.length := by
      have hrun := h.duties.run j
      rcases hserves with hm | hm | hm <;> rw [hm] at hrun <;>
        rw [← Host.Outcome.next.inj hrun] at hchange ⊢
      · exact deliver_shrinks hchange
      · exact deliver_shrinks hchange
      · exact dropWord_shrinks hchange ((hk j hj).symm ▸ hne)
    rw [hk _ (Nat.le_succ_of_le hj), hk j hj] at hshrinks
    exact lt_irrefl _ hshrinks

/-- The duty to deliver EOF then ends the direction. -/
theorem elim (h : NeverEnds σ μ lane) (hroom : ∀ k, ∃ j, k ≤ j ∧ (σ j).readerFull lane = false)
    (hstart : ∃ k, (σ k).readerStarted lane = true) : False := by
  obtain ⟨settled, hsettled⟩ := h.exists_settled
  obtain ⟨started, hstarted⟩ := hstart
  obtain ⟨k, hk, hkroom⟩ := hroom (max settled started)
  have hkeep : ∀ j, k ≤ j → ((σ j).lane lane).buf = ((σ k).lane lane).buf := fun j hj =>
    (hsettled j (by omega)).trans (hsettled k (by omega)).symm
  obtain ⟨j, hj, hdue | ⟨hserves, hchange⟩⟩ := h.duties.endsStream lane k
  · exact hdue ⟨(h.closed_and_bench j).1, (hkeep j hj).trans (h.buf_nil_of_settled hkeep hkroom),
      h.unended j, h.started_of_le hstarted (by omega)⟩
  · have hrun := h.duties.run j
    have hended := h.unended (j + 1)
    rw [hserves] at hrun
    rw [← Host.Outcome.next.inj hrun] at hchange hended
    rw [deliverEof_ends hchange] at hended
    cases hended

end NeverEnds

/-- SE's channel full of a byte SE does not take, with one more held behind it and CF's CLOSE taken. -/
def fullReader : State :=
  { State.reset with
    se := { SE.afterReset with rx := [byteWord true 0x41] }
    link := { c2s := { LaneState.empty with buf := [0x42], closed := true }, s2c := LaneState.empty }
    params := { Params.reference with rxRoomC2s := some 1 } }

/-- In a run at rest what is not due is served. -/
theorem served_at_rest {s : State} {due : State → Prop} {serves : Move → Prop} (h : ¬due s) :
    Served (fun _ => s) (fun _ => .pass) due serves :=
  fun k => ⟨k, le_rfl, .inl h⟩

/-- Without room in the reader's channel a closed direction need not end. -/
theorem neverEnds_of_full_reader : NeverEnds (fun _ => fullReader) (fun _ => .pass) .c2s where
  duties := {
    run := fun _ => rfl
    conforming := rfl
    takes := fun lane => served_at_rest (by cases lane <;> decide)
    delivers := fun lane => served_at_rest (by cases lane <;> decide)
    endsStream := fun lane => served_at_rest (by cases lane <;> decide)
    takesResults := served_at_rest (by decide) }
  closed := rfl
  unended := fun _ => rfl
  unconnected := fun _ => nofun

/-- A closed direction ends, unless the transport is connected anew, where the reader's channel has room again
and again and its unit starts at some time (R94, R98). -/
theorem HostDuties.closed_ends {σ : Nat → State} {μ : Nat → Move} {lane : Lane} (h : HostDuties σ μ)
    (hclosed : ((σ 0).lane lane).closed = true)
    (hroom : ∀ k, ∃ j, k ≤ j ∧ (σ j).readerFull lane = false)
    (hstart : ∃ k, (σ k).readerStarted lane = true) :
    ∃ j, ((σ j).lane lane).ended = true ∨ μ j = .connect := by
  by_contra hnever
  simp only [not_exists, not_or, Bool.not_eq_true] at hnever
  have hrun : NeverEnds σ μ lane := ⟨h, hclosed, fun j => (hnever j).1, fun j => (hnever j).2⟩
  exact hrun.elim hroom hstart

/-! ### Resets and connections -/

section Connections
variable {s : State} {lane : Lane}

theorem State.betweenSessions_iff (s : State) :
    s.betweenSessions = true ↔ s.link.c2s.writerReset = true ∧ s.link.s2c.writerReset = true ∧
      s.se.rx = [] ∧ s.cf.nrx = [] := by
  simp [State.betweenSessions, and_assoc]

/-- What stands against a new connection in either direction (R297, R313). -/
theorem not_betweenSessions
    (h : (s.lane lane).writerReset = false ∨ s.readerChannel lane ≠ []) :
    s.betweenSessions = false := by
  refine Bool.eq_false_iff.mpr fun hb => ?_
  obtain ⟨hc2s, hs2c, hrx, hnrx⟩ := s.betweenSessions_iff.mp hb
  cases lane <;> simp_all [State.lane, State.readerChannel]

theorem connect_enabled (h : s.betweenSessions = true) :
    connect s = { s with link := { c2s := LaneState.empty, s2c := LaneState.empty } } := by
  simp [connect, h]

theorem connect_disabled (h : s.betweenSessions = false) : connect s = s := by
  simp [connect, h]

/-- The reset of the unit that writes a direction ends the connection of its side: the direction is closed, the
bytes towards the side are gone, and nothing more reaches it (R329). -/
theorem doMove_writerReset {t : State} (h : doMove lane.writerResetMove s = .next t) :
    t.lane lane = { s.lane lane with closed := true, writerReset := true } ∧
    t.lane lane.other = { s.lane lane.other with buf := [], ended := true, chunkLen := 0 } ∧
    t.readerClosed lane.other = true := by
  cases lane <;> cases h
  · exact ⟨rfl, rfl, Bool.or_true _⟩
  · exact ⟨rfl, rfl, Bool.or_true _⟩

end Connections

/-- Settles O51: the transport's moves condition by condition, the resets, the connection, what the host takes,
and the end of a closed direction in an endless run. -/
theorem transportLimits : Obligations.TransportLimits := by
  intro s lane
  refine ⟨?full, ?ended, ?ioerr, ?eof, ?noEof, fun hclosed => ⟨?dropsByte, ?dropsWord, ?waits⟩, ?opened,
    ?reset, ?connects, ?keeps, ?takesRes, ?takesSeEv, ?takesCfEv, ?ends⟩
  case full => exact fun k hk hle => congrArg _ (carry_full ((s.full_eq_true_iff lane).mpr ⟨k, hk, hle⟩))
  case ended =>
    rintro h m (rfl | rfl | rfl | rfl)
    · exact congrArg _ (deliver_disabled (.inl h))
    · exact congrArg _ (deliver_disabled (.inl h))
    · exact congrArg _ (deliverEof_disabled (.inr (.inr (.inl h))))
    · exact congrArg _ (deliverErr_disabled h)
  case ioerr => exact fun h => congrArg _ (deliverErr_enabled h)
  case eof =>
    exact fun hended hclosed hbuf hcst => congrArg _
      (deliverEof_enabled hclosed hbuf hended (readerStarted_of_imp hcst))
  case noEof =>
    rintro (h | h | ⟨rfl, h⟩)
    · exact congrArg _ (deliverEof_disabled (.inl h))
    · exact congrArg _ (deliverEof_disabled (.inr (.inl h)))
    · exact congrArg _ (deliverEof_disabled (.inr (.inr (.inr (by simp [State.readerStarted, h])))))
  case dropsByte => exact fun b rest hb => congrArg _ (dropWord_byte hclosed hb)
  case dropsWord => exact fun hb hreset => congrArg _ (dropWord_written hclosed hb hreset)
  case waits => exact fun hb hreset => congrArg _ (dropWord_writerReset hb hreset)
  case opened => exact fun h => congrArg _ (dropWord_open h)
  case reset =>
    rintro m t rfl h
    exact doMove_writerReset (by cases lane <;> exact h)
  case connects =>
    exact fun hc2s hs2c hrx hnrx => congrArg _
      (connect_enabled (s.betweenSessions_iff.mpr ⟨hc2s, hs2c, hrx, hnrx⟩))
  case keeps => exact fun h => congrArg _ (connect_disabled (not_betweenSessions h))
  case takesRes => intro w rest h; simp [doMove, takeRes, h]
  case takesSeEv => intro e rest h; simp [doMove, takeSeEv, h]
  case takesCfEv => intro e rest h; simp [doMove, takeCfEv, h]
  case ends =>
    rintro σ μ hd rfl hroom hstart hclosed
    refine hd.closed_ends hclosed hroom ?_
    cases lane with
    | c2s => exact ⟨0, rfl⟩
    | s2c =>
      obtain ⟨k, hk⟩ := hstart rfl
      exact ⟨k, readerStarted_of_imp fun _ => hk⟩

end Sys2Proof.Machine
end

section
/-! SUPPORT. Decode and encode, unit by unit: what the fields of a packed vector say, that every vector is
the packing of its fields, and that the row picked is the one the vector is the word of. Then the statement that
the two agree. -/

namespace Sys2Proof

theorem cfX_fields : ∀ (hi : BitVec 2) (lo : Bool),
    (cfX hi lo).extractLsb' 1 2 = hi ∧ (cfX hi lo).getLsbD 0 = lo := by
  decide

theorem seDvBits_of_fields : ∀ v : BitVec 6,
    seDvBits (v.extractLsb' 4 2) (v.getLsbD 3) (v.extractLsb' 1 2) (v.getLsbD 0) = v := by
  decide

theorem cfDvBits_of_fields : ∀ v : BitVec 10,
    cfDvBits (v.extractLsb' 8 2) (v.extractLsb' 5 3) (v.getLsbD 4) (v.getLsbD 3)
      (v.extractLsb' 0 3) = v := by
  decide

theorem cfX_of_fields : ∀ x : BitVec 3, cfX (x.extractLsb' 1 2) (x.getLsbD 0) = x := by
  decide

/-- BYTE_INVALID is decoded from exactly the bytes that no row above it names (R133). -/
theorem byteRows_lookup_eq_none_iff : ∀ b : Byte, byteRows.lookup b = none ↔ namedByte b = false := by
  decide

theorem decodeByte_of_not_named {b : Byte} (h : namedByte b = false) :
    decodeByte b = .byteInvalid b := by
  simp [decodeByte, (byteRows_lookup_eq_none_iff b).mpr h]

/-- A row of the `BYTE` table is the word of the instruction it names (R133). -/
theorem encode_of_mem_byteRows : ∀ r ∈ byteRows, r.2.wellFormed = true ∧ encode r.2 = .byte r.1 := by
  decide

namespace Machine

@[simp] theorem SeSt.bits_ofBits : ∀ b : BitVec 2, (SeSt.ofBits b).bits = b := by decide
@[simp] theorem CfSt.bits_ofBits : ∀ b : BitVec 3, (CfSt.ofBits b).bits = b := by decide
@[simp] theorem Kind.bits_ofBits : ∀ b : BitVec 2, (Kind.ofBits b).bits = b := by decide

/-- The word of a well-formed instruction decodes to it: each test of the tables is on a field of the row's
own pattern. (The lemmas on the fields speak of single bits by `getLsbD`, which is therefore kept.) -/
theorem decode_encode {i : Instr} (h : i.wellFormed = true) : decode (encode i) = .ok i := by
  cases i with
  | seHsOk | seHsBad | seHsEof | seHsErr | seData | seTerm | seKey | seEof | seIoerr | seDiscard
  | seReservedState => simp [encode, decode, decodeSe, seDvBits_fields,
      -BitVec.getLsbD_eq_getElem]
  | seIllegal st0 => cases st0 <;> simp [encode, decode, decodeSe, seDvBits_fields,
      -BitVec.getLsbD_eq_getElem]
  | cfStartOk | cfStartKeylen | cfCmdIllegal1 | cfCmdIllegal2 | cfCmdIllegal3 =>
    simp [encode, decode, decodeCf, decodeCfCommand, cfDvBits_fields, cfX_fields,
      -BitVec.getLsbD_eq_getElem]
  | cfHsOk | cfHsBad | cfHsEof | cfHsErr | cfNetIllegal1 | cfNetIllegal2 | cfRecvByte | cfRecvTerm
  | cfRecvEof | cfRecvErr | cfDiscard1 | cfDiscard2 | cfDiscard3 =>
    simp [encode, decode, decodeCf, decodeCfNet, cfDvBits_fields, cfX_fields,
      -BitVec.getLsbD_eq_getElem]
  | cfSendByte | cfSendSent =>
    simp [encode, decode, decodeCf, decodeCfInternal, cfDvBits_fields,
      -BitVec.getLsbD_eq_getElem]
  | byteInvalid b =>
    exact congrArg Except.ok (decodeByte_of_not_named (by simpa [Instr.wellFormed] using h))
  | _ => rfl

/-- An instruction is well formed and has this word. -/
def IsWordOf (v : InstrWord) (i : Instr) : Prop := i.wellFormed = true ∧ encode i = v

/-- R130's row for a state and a word is the row of their vector. -/
theorem seOperation_isWordOf (st : SeSt) (cv : Bool) (kind : Kind) (sm : Bool) :
    IsWordOf (.seDv (seDvBits st.bits cv kind.bits sm)) (seOperation st cv kind sm) := by
  cases st with
  | awaitHs => cases kind <;> cases sm <;> exact ⟨rfl, rfl⟩
  | active => cases kind <;> cases cv <;> cases sm <;> exact ⟨rfl, rfl⟩
  | closed | reserved => exact ⟨rfl, rfl⟩

/-- R132's row for a net word is the row of its vector. -/
theorem isWordOf_of_cfNetOperation {cst : CfSt} {ph a : Bool} {kind : Kind} {sm : Bool} {i : Instr}
    (h : cfNetOperation cst ph a kind sm = .ok i) :
    IsWordOf (.cfDv (cfDvBits 0b10 cst.bits ph a (cfX kind.bits sm))) i := by
  cases cst with
  | idle | done | fail => cases h; exact ⟨rfl, rfl⟩
  | hsWait => cases kind <;> cases sm <;> cases h <;> exact ⟨rfl, rfl⟩
  | stream => cases ph <;> cases kind <;> cases sm <;> cases h <;> exact ⟨rfl, rfl⟩
  | reserved5 | reserved6 | reserved7 => cases h

/-- R132's row for a command is the row of its vector. -/
theorem isWordOf_of_cfCommandOperation {cst : CfSt} {ph a : Bool} {op : BitVec 2} {keyOk : Bool}
    {i : Instr} (h : cfCommandOperation cst ph a op keyOk = .ok i) :
    IsWordOf (.cfDv (cfDvBits 0b01 cst.bits ph a (cfX op keyOk))) i := by
  cases cst with
  | idle =>
    simp only [cfCommandOperation] at h
    split_ifs at h with hstart hkey h00 h10 <;> cases h
    · subst hstart hkey; exact ⟨rfl, rfl⟩
    · obtain rfl := Bool.eq_false_iff.mpr hkey
      subst hstart; exact ⟨rfl, rfl⟩
    · subst h00; exact ⟨rfl, rfl⟩
    · subst h10; exact ⟨rfl, rfl⟩
    · obtain rfl : op = 0b11#2 := by revert op; decide
      exact ⟨rfl, rfl⟩
  | hsWait | stream | done | fail | reserved5 | reserved6 | reserved7 => cases h

/-- R132's row for an internal step is the row of its vector. -/
theorem isWordOf_of_cfInternalOperation {cst : CfSt} {ph a more : Bool} {i : Instr}
    (h : cfInternalOperation cst ph a more = .ok i) :
    IsWordOf (.cfDv (cfDvBits 0b00 cst.bits ph a (cfX 0b00 more))) i := by
  cases cst with
  | stream => cases ph <;> cases a <;> cases more <;> cases h <;> exact ⟨rfl, rfl⟩
  | idle | hsWait | done | fail | reserved5 | reserved6 | reserved7 => cases h

/-- SE's table has a row for every vector, and the vector is that row's word (R130). -/
theorem decodeSe_isWordOf (v : BitVec 6) : IsWordOf (.seDv v) (decodeSe v) := by
  have h := seOperation_isWordOf (SeSt.ofBits (v.extractLsb' 4 2)) (v.getLsbD 3)
    (Kind.ofBits (v.extractLsb' 1 2)) (v.getLsbD 0)
  rwa [← decodeSe_operation, SeSt.bits_ofBits, Kind.bits_ofBits, seDvBits_of_fields] at h

/-- CF's vector is packed of a source, a state, the two flags and `X = {hi, lo}` (R132). -/
theorem exists_cfDvBits (v : BitVec 10) : ∃ src cst ph a hi lo,
    v = cfDvBits src (CfSt.bits cst) ph a (cfX hi lo) :=
  ⟨v.extractLsb' 8 2, CfSt.ofBits (v.extractLsb' 5 3), v.getLsbD 4, v.getLsbD 3,
    (v.extractLsb' 0 3).extractLsb' 1 2, (v.extractLsb' 0 3).getLsbD 0, by
      rw [CfSt.bits_ofBits, cfX_of_fields, cfDvBits_of_fields]⟩

/-- An internal step is picked by an X of `{00, MORE}` only (R132). -/
theorem hi_eq_zero_of_decodeCfInternal {cst : BitVec 3} {ph a : Bool} {hi : BitVec 2} {lo : Bool}
    {i : Instr} (h : decodeCfInternal cst ph a (cfX hi lo) = .ok i) : hi = 0b00 := by
  have hx : cfX hi lo = 0b001#3 ∨ cfX hi lo = 0b000#3 := by
    unfold decodeCfInternal at h
    split_ifs at h
    · exact .inl ‹_›
    · exact .inr ‹_›
  rcases hx with hx | hx <;> exact (cfX_fields hi lo).1.symm.trans (congrArg _ hx)

/-- R132's rows with `SRC = 00` are those of the internal source. -/
theorem decodeCfInternal_of_decodeCf {cst : BitVec 3} {ph a : Bool} {x : BitVec 3} {i : Instr}
    (h : decodeCf (cfDvBits 0b00 cst ph a x) = .ok i) : decodeCfInternal cst ph a x = .ok i := by
  simp only [decodeCf, cfDvBits_fields] at h
  split at h
  · cases h
  · split at h
    · cases h
    · exact h

/-- CF's table, source by source (R132). -/
theorem isWordOf_of_decodeCf {v : BitVec 10} {i : Instr} (h : decodeCf v = .ok i) :
    IsWordOf (.cfDv v) i := by
  obtain ⟨src, cst, ph, a, hi, lo, rfl⟩ := exists_cfDvBits v
  have hsources : ∀ src : BitVec 2, src = 0b00 ∨ src = 0b01 ∨ src = 0b10 ∨ src = 0b11 := by decide
  rcases hsources src with rfl | rfl | rfl | rfl
  · obtain rfl := hi_eq_zero_of_decodeCfInternal (decodeCfInternal_of_decodeCf h)
    exact isWordOf_of_cfInternalOperation ((decodeCf_internalOperation ..).symm.trans h)
  · exact isWordOf_of_cfCommandOperation ((decodeCf_commandOperation ..).symm.trans h)
  · rw [← Kind.bits_ofBits hi] at h ⊢
    exact isWordOf_of_cfNetOperation ((decodeCf_netOperation ..).symm.trans h)
  · simp [decodeCf, cfDvBits_fields] at h

/-- Every byte has a row, a named one or BYTE_INVALID (R133). -/
theorem decodeByte_isWordOf (b : Byte) : IsWordOf (.byte b) (decodeByte b) := by
  unfold decodeByte
  split
  · next i hi =>
    obtain ⟨above, below, hrows, -⟩ := List.lookup_eq_some_iff.mp hi
    exact encode_of_mem_byteRows (b, i) (by simp [hrows])
  · next hnone =>
    have hnamed : namedByte b = false := (byteRows_lookup_eq_none_iff b).mp hnone
    exact ⟨by simp [Instr.wellFormed, hnamed], rfl⟩

theorem decodeDir_isWordOf : ∀ d : BitVec 1, IsWordOf (.cfgDir d) (decodeDir d) := by
  unfold IsWordOf; decide

theorem decodePol_isWordOf : ∀ p : BitVec 2, IsWordOf (.cfgPol p) (decodePol p) := by
  unfold IsWordOf; decide

/-- A word that decodes is the word of the instruction it decodes to, in each of the five formats (R136). -/
theorem isWordOf_of_decode {v : InstrWord} {i : Instr} (h : decode v = .ok i) : IsWordOf v i := by
  cases v with
  | seDv v => cases h; exact decodeSe_isWordOf v
  | cfDv v => exact isWordOf_of_decodeCf h
  | byte b => cases h; exact decodeByte_isWordOf b
  | cfgDir d => cases h; exact decodeDir_isWordOf d
  | cfgPol p => cases h; exact decodePol_isWordOf p

/-- Settles O56, by the fields of a packed vector in one direction and the rows by name in the other. -/
theorem decodeEncodeAgree : Obligations.DecodeEncodeAgree :=
  ⟨fun _ => decode_encode, fun _ _ => isWordOf_of_decode⟩

end Machine

end Sys2Proof
end

section
/-! SUPPORT. What the rows of formats `BYTE`, `CFG_DIR` and `CFG_POL` answer, and the words written out from the
tables. Then the statements about these rows and about SE_RESERVED_STATE. -/

namespace Sys2Proof.Machine

/-- A byte that no row above BYTE_INVALID names is no symbol (R110, R160). -/
theorem sym2val_of_not_named {b : Byte} (h : namedByte b = false) : sym2val b = none := by
  simp only [namedByte, Bool.or_eq_false_iff, Bool.and_eq_false_iff, decide_eq_false_iff_not,
    beq_eq_false_iff_ne] at h
  obtain ⟨⟨⟨⟨hletter, hspace⟩, -⟩, -⟩, -⟩ := h
  have hrange : ¬(0x41 ≤ b.toNat ∧ b.toNat ≤ 0x5A) := by
    simpa [BitVec.le_def, imp_iff_not_or] using hletter
  simp [sym2val, hrange, hspace]

/-- The row of a byte makes ALPHA answer that byte with the value `sym2val` gives (R160). -/
theorem exec_byteRow {i : Instr} {b : Byte} (hi : i.wellFormed = true) (hb : encode i = .byte b)
    (s : State) : exec i s = alphaAnswer b (sym2val b) s := by
  cases i with
  | byteInvalid c =>
    cases hb
    rw [sym2val_of_not_named (by simpa [Instr.wellFormed] using hi)]
    rfl
  | _ => cases hb <;> rfl

/-- R111, class by class. -/
theorem byteClass_symbol {b : Byte} (sent : Byte) (h : (sym2val b).isSome = true) :
    byteClass sent b = .symbol := by
  simp [byteClass, h]

theorem byteClass_not_symbol {b : Byte} (sent : Byte) (h : sym2val b = none) :
    byteClass sent b = if b = sent then .sentinel else .other := by
  simp [byteClass, h]

/-- Settles O6, by the row of a byte and what that row makes ALPHA answer. -/
theorem byteRowsAnswer : Obligations.ByteRowsAnswer := by
  refine ⟨fun i b s hi hb => ⟨hb ▸ decode_encode hi, exec_byteRow hi hb s⟩,
    fun b => ⟨decodeByte b, decodeByte_isWordOf b⟩,
    fun sent b => ⟨byteClass_symbol sent, fun hb hsent => ?_, fun hb hsent => ?_⟩⟩
  · rw [byteClass_not_symbol sent hb, if_pos hsent]
  · rw [byteClass_not_symbol sent hb, if_neg hsent]

/-- Settles O7: each row is the transform in its direction, whose value is the sum or difference reduced
modulo 27. -/
theorem directionRowsAnswer : Obligations.DirectionRowsAnswer :=
  fun _ => ⟨rfl, rfl, rfl, rfl⟩

/-- Settles O9: each row is the pair operation under its policy. -/
theorem policyRowsAnswer : Obligations.PolicyRowsAnswer :=
  fun _ => ⟨rfl, rfl, rfl, rfl, rfl, rfl⟩

/-- Settles O19, by the row that R130 has for the state. -/
theorem reservedStateRefused : Obligations.ReservedStateRefused := by
  intro s w hst
  refine ⟨?_, rfl⟩
  simp only [decode, decodeSe_vector, hst, seOperation]

/-- Settles O55: a word in the tables is the word of its row, and a command in STREAM is in no row (R253). -/
theorem wordsDecode : Obligations.WordsDecode :=
  ⟨decode_encode (i := .seHsOk false) rfl, decode_encode (i := .seData) rfl,
    decode_encode (i := .seKey true) rfl, decode_encode (i := .seDiscard true 0b11 false) rfl,
    decode_encode (i := .cfStartOk false false) rfl, decode_encode (i := .cfSendByte) rfl,
    decode_encode (i := .cfRecvByte false) rfl,
    decodeCf_commandOperation .stream false false opStart true,
    decode_encode (i := .symH) rfl, decode_encode (i := .sentEncService) rfl,
    decode_encode (i := .byteInvalid 0x61) rfl, decode_encode (i := .xformDec) rfl,
    decode_encode (i := .polAbort) rfl⟩

end Sys2Proof.Machine
end

section
/-! SUPPORT. The bits of the channel words (R113, R116, R117, R119). Then the statements about them. -/

namespace Sys2Proof.Machine

/-- The fields of a net word (R113). -/
theorem NetWord.bits_fields (w : NetWord) :
    w.bits.extractLsb' 0 8 = w.data ∧ w.bits.getLsbD 8 = w.last ∧
      w.bits.extractLsb' 9 2 = w.kind.bits := by
  unfold NetWord.bits
  refine ⟨BitVec.extractLsb'_append_eq_right, getLsbD_of_extractLsb' ?_, ?_⟩
  all_goals repeat rw [BitVec.extractLsb'_append_eq_of_le (by decide)]
  · exact BitVec.extractLsb'_append_eq_right
  · exact BitVec.extractLsb'_eq_self

@[simp] theorem NetWord.ofBits_bits (w : NetWord) : NetWord.ofBits w.bits = w := by
  obtain ⟨hdata, hlast, hkind⟩ := w.bits_fields
  simp only [NetWord.ofBits, hdata, hlast, hkind, Kind.ofBits_bits]

/-- One bit of a word is its field of width 1. -/
theorem ofBool_getLsbD {n : Nat} (x : BitVec n) (i : Nat) :
    BitVec.ofBool (x.getLsbD i) = x.extractLsb' i 1 := by
  ext j hj
  obtain rfl : j = 0 := by omega
  simp

/-- Eleven bits are the packing of their fields. -/
theorem NetWord.bits_ofBits (b : BitVec 11) : (NetWord.ofBits b).bits = b := by
  simp only [NetWord.bits, NetWord.ofBits, Kind.bits_ofBits, ofBool_getLsbD]
  rw [BitVec.extractLsb'_append_extractLsb'_eq_extractLsb' (show 9 = 8 + 1 from rfl)]
  exact BitVec.extractLsb'_append_extractLsb' (w := 3) (len := 8)

/-- The fields of a result word (R117). -/
theorem ResWord.byte_bits_fields (b : Byte) :
    (ResWord.byte b).bits.extractLsb' 8 2 = 0b00 ∧ (ResWord.byte b).bits.extractLsb' 0 8 = b := by
  simp only [ResWord.bits]
  refine ⟨?_, BitVec.extractLsb'_append_eq_right⟩
  rw [BitVec.extractLsb'_append_eq_of_le (by decide)]
  exact BitVec.extractLsb'_eq_self

/-- A FAIL carries `{0000, cause}` (R117). -/
theorem ResWord.fail_bits_fields (c : Cause) :
    (ResWord.fail c).bits.extractLsb' 8 2 = 0b10 ∧ (ResWord.fail c).bits.extractLsb' 4 4 = 0x0 ∧
    (ResWord.fail c).bits.extractLsb' 0 4 = c.bits := by
  simp only [ResWord.bits]
  refine ⟨?_, ?_, BitVec.extractLsb'_append_eq_right⟩
  all_goals repeat rw [BitVec.extractLsb'_append_eq_of_le (by decide)]
  · exact BitVec.extractLsb'_eq_self
  · exact BitVec.extractLsb'_append_eq_right

/-- The fields of an event word (R119). -/
theorem Event.bits_fields (e : Event) :
    e.bits.extractLsb' 4 4 = e.code.bits ∧ e.bits.extractLsb' 0 4 = e.arg := by
  unfold Event.bits
  refine ⟨?_, BitVec.extractLsb'_append_eq_right⟩
  rw [BitVec.extractLsb'_append_eq_of_le (by decide)]
  exact BitVec.extractLsb'_eq_self

/-- Settles O36, word by word; the codes are those that the definitions list. -/
theorem netWordBits : Obligations.NetWordBits := by
  refine ⟨fun w => ?_, NetWord.bits_ofBits, fun b c => ?_, Event.bits_fields, ⟨rfl, rfl, rfl, rfl⟩,
    ⟨rfl, rfl, rfl, rfl, rfl⟩, rfl, rfl, rfl, rfl, rfl, rfl, rfl, rfl, rfl, rfl⟩
  · obtain ⟨hdata, hlast, hkind⟩ := w.bits_fields
    exact ⟨hdata, hlast, hkind, w.ofBits_bits⟩
  · obtain ⟨hkind, hdata⟩ := ResWord.byte_bits_fields b
    exact ⟨hkind, hdata, rfl, ResWord.fail_bits_fields c⟩

/-- The fields of a command word are read back from its bits (R116). -/
theorem CmdWord.ofBits_packed {lenW : Nat} (op : BitVec 2) {n m : Nat} (hn : n < 2 ^ lenW)
    (hm : m < 2 ^ lenW) :
    CmdWord.ofBits lenW (op.toNat * 2 ^ (2 * lenW) + m * 2 ^ lenW + n) =
      { op := op, n := n, m := m } := by
  have hsq : 2 ^ (2 * lenW) = 2 ^ lenW * 2 ^ lenW := by rw [two_mul, pow_add]
  have hpos : 0 < 2 ^ lenW := Nat.two_pow_pos lenW
  have hbits : op.toNat * 2 ^ (2 * lenW) + m * 2 ^ lenW + n =
      n + 2 ^ lenW * (m + 2 ^ lenW * op.toNat) := by rw [hsq]; ring
  have hupper : (op.toNat * 2 ^ (2 * lenW) + m * 2 ^ lenW + n) / 2 ^ lenW =
      m + 2 ^ lenW * op.toNat := by
    rw [hbits, Nat.add_mul_div_left _ _ hpos, Nat.div_eq_of_lt hn, Nat.zero_add]
  unfold CmdWord.ofBits
  congr 1
  · rw [hsq, ← Nat.div_div_eq_div_mul, ← hsq, hupper, Nat.add_mul_div_left _ _ hpos,
      Nat.div_eq_of_lt hm, Nat.zero_add, BitVec.ofNat_toNat, BitVec.setWidth_eq]
  · rw [hbits, Nat.add_mul_mod_self_left, Nat.mod_eq_of_lt hn]
  · rw [hupper, Nat.add_mul_mod_self_left, Nat.mod_eq_of_lt hm]

/-- Who may write a command: a test host any, the host of R98 a START in IDLE (R98). -/
theorem State.mayCommand_iff (s : State) (w : CmdWord) :
    s.mayCommand w = true ↔ s.bench = true ∨ (w.op = opStart ∧ s.cf.cst = .idle) := by
  simp [State.mayCommand]

/-- Settles O37, by the fields of the word and who may write it. -/
theorem commandWordBits : Obligations.CommandWordBits := by
  intro s op n m hn hm
  have hword := CmdWord.ofBits_packed op hn hm
  have hmay := s.mayCommand_iff { op := op, n := n, m := m }
  refine ⟨fun h => ?_, fun hbench hstart => ?_⟩
  · simp [doMove, sendCommand, hword, hmay.mpr h]
  · have hnot : s.mayCommand { op := op, n := n, m := m } = false :=
      Bool.eq_false_iff.mpr fun h => (hmay.mp h).elim (by simp [hbench]) hstart
    simp [doMove, sendCommand, hword, hnot]

end Sys2Proof.Machine
end

section
/-! SUPPORT. When a step does not stop: every shared operation but the refusal of `ST = 11` answers a next state.
Then the statements about a step of the machine. -/

namespace Sys2Proof.Machine

/-- The script is no part of what a move presents to the decoder. -/
@[simp] theorem presented_script (m : Move) (s : State) (ms : List Move) :
    presented m { s with script := ms } = presented m s := by
  cases m <;> rfl

/-- A move that presents a word is a unit's. -/
theorem doMove_of_presented {m : Move} {s : State} {v : InstrWord} (h : presented m s = some v) :
    doMove m s = unitStep m s := by
  cases m with
  | se | cfCommand | cfNet | cfInternal | alpha | xform | policy => rfl
  | _ => cases h

/-- Settles O54: the move that presents a word is a unit's, and its step runs the instruction decoded. -/
theorem stepRunsDecodedInstruction : Obligations.StepRunsDecodedInstruction := by
  intro s m rest v i hscript hv hd
  have hv' : presented m { s with script := rest } = some v := (presented_script m s rest).trans hv
  rw [step_cons s m rest hscript, doMove_of_presented hv', unitStep_decoded hv' hd]

section Completes
variable (s : State)

theorem cfTakeNet_next (net res : CF → Nat) (act : CF → NetWord → CF) :
    ∃ t, cfTakeNet net res act s = .next t := by
  unfold cfTakeNet
  split
  · exact ⟨_, rfl⟩
  · split <;> exact ⟨_, rfl⟩

theorem cfTakeCommand_next (net res : CF → Nat) (act : CF → CmdWord → CF) :
    ∃ t, cfTakeCommand net res act s = .next t := by
  unfold cfTakeCommand
  split
  · exact ⟨_, rfl⟩
  · split <;> exact ⟨_, rfl⟩

theorem cfSend_next (act : CF → CF) : ∃ t, cfSend act s = .next t := by
  unfold cfSend
  split <;> exact ⟨_, rfl⟩

theorem execPolIllegal_next : ∃ t, execPolIllegal s = .next t := by
  unfold execPolIllegal
  split
  · exact ⟨_, rfl⟩
  · split <;> exact ⟨_, rfl⟩

/-- Every instruction but SE_RESERVED_STATE completes, in every state (R131). -/
theorem exec_next {i : Instr} (hi : inputOf i ≠ .unreachable) : ∃ t, exec i s = .next t := by
  have hop := exec_operation i s
  generalize inputOf i = place at hop hi
  cases hop with
  | seRx hexec _ => rw [hexec]; exact seTake_next _ _ _
  | cfNrx hexec _ => rw [hexec]; exact cfTakeNet_next _ _ _ _
  | cfCmd hexec _ => rw [hexec]; exact cfTakeCommand_next _ _ _ _
  | cfInternal hexec _ _ _ => rw [hexec]; exact cfSend_next _ _
  | nets hexec => exact ⟨_, hexec⟩
  | policyRegister hexec => rw [hexec]; exact execPolIllegal_next _
  | unreachable _ => exact absurd rfl hi

variable {s}

/-- An SE vector is presented by SE's move alone, for the word at the head of `SE.rx` (R130). -/
theorem presented_seDv {m : Move} {v : BitVec 6} (h : presented m s = some (.seDv v)) :
    ∃ w, v = s.se.vector w := by
  cases m with
  | se =>
    obtain ⟨w, -, hv⟩ := Option.map_eq_some_iff.mp h
    cases hv
    exact ⟨w, rfl⟩
  | cfCommand | cfNet =>
    obtain ⟨_, -, hv⟩ := Option.map_eq_some_iff.mp h
    cases hv
  | _ => cases h

/-- Outside `ST = 11` no word that is presented decodes to SE_RESERVED_STATE (R130, R131). -/
theorem inputOf_ne_unreachable (hst : s.se.st ≠ .reserved) {m : Move} {v : InstrWord} {i : Instr}
    (hv : presented m s = some v) (hd : decode v = .ok i) : inputOf i ≠ .unreachable := by
  obtain ⟨-, hword⟩ := isWordOf_of_decode hd
  cases v with
  | seDv v =>
    obtain ⟨w, rfl⟩ := presented_seDv hv
    obtain rfl := Except.ok.inj hd
    rw [decodeSe_vector, inputOf_seOperation hst]
    nofun
  | cfDv => rcases inputOf_of_cfDv hword with h | h | h <;> simp [h]
  | byte => simp [inputOf_of_byte hword]
  | cfgDir => simp [inputOf_of_cfgDir hword]
  | cfgPol => rcases inputOf_of_cfgPol hword with h | h <;> simp [h]

theorem unitStep_next (hst : s.se.st ≠ .reserved) (m : Move) : ∃ t, unitStep m s = .next t := by
  unfold unitStep
  split
  · exact ⟨_, rfl⟩
  · next v hv =>
    split
    · next i hd => exact exec_next _ (inputOf_ne_unreachable hst hv hd)
    · exact ⟨_, rfl⟩

/-- Outside `ST = 11` a move stops only as the host's placing of a byte where there is no place for it, or while
a session is in progress (R82, R84). -/
theorem doMove_next_or_place (hst : s.se.st ≠ .reserved) (m : Move) :
    (∃ t, doMove m s = .next t) ∨
      ∃ space a b, m = .place space a b ∧ (2 ^ s.params.lenW ≤ a ∨ s.inSession = true) := by
  cases m with
  | se | cfCommand | cfNet | cfInternal | alpha | xform | policy =>
    exact .inl (by simp only [doMove]; exact unitStep_next hst _)
  | place space a b =>
    by_cases ha : 2 ^ s.params.lenW ≤ a
    · exact .inr ⟨space, a, b, rfl, .inl ha⟩
    · cases hs : s.inSession with
      | true => exact .inr ⟨space, a, b, rfl, .inr rfl⟩
      | false => exact .inl ⟨_, place_enabled space b (Nat.not_le.mp ha) hs⟩
  | _ => exact .inl ⟨_, rfl⟩

end Completes

/-- Settles O60: the invariant rules out `ST = 11`, and of the other moves only a placing stops. -/
theorem stopsOnlyOnHostFault : Obligations.StopsOnlyOnHostFault := by
  intro s hinv
  cases hscript : s.script with
  | nil => exact .inl ⟨s, step_nil s hscript⟩
  | cons m rest =>
    rw [step_cons s m rest hscript]
    have hst : ({ s with script := rest } : State).se.st ≠ .reserved := hinv.se.reachable_state
    rcases doMove_next_or_place hst m with hnext | ⟨space, a, b, rfl, hstop⟩
    · exact .inl hnext
    · exact .inr ⟨space, a, b, rest, rfl, hstop.imp_right (State.inSession_iff _).mp⟩

end Sys2Proof.Machine
end

section
/-! SUPPORT. The words of the trace macros (R135) and the interleaved stream (R112). Then the statement about
them. -/

namespace Sys2Proof.Machine

/-- Where LAST stands in a chunk of `n` bytes: on the last one (R135). -/
def lastFlags (n : Nat) : List Bool := (List.range n).map (fun i => decide (i + 1 = n))

@[simp] theorem lastFlags_zero : lastFlags 0 = [] := rfl

@[simp] theorem lastFlags_one : lastFlags 1 = [true] := rfl

/-- A byte put before a chunk does not end it. -/
theorem lastFlags_succ_succ (n : Nat) : lastFlags (n + 2) = false :: lastFlags (n + 1) := by
  rw [lastFlags, List.range_succ_eq_map, List.map_cons, List.map_map]
  simp [lastFlags, Function.comp_def]

/-- The words of a chunk carry its bytes, each in a BYTE word. -/
theorem chunkWords_data (bs : List Byte) : (chunkWords bs).map (fun w => w.data) = bs := by
  induction bs using chunkWords.induct with
  | case1 => rfl
  | case2 b => rfl
  | case3 b c rest ih => simp [chunkWords, ih, byteWord]

theorem chunkWords_kind (bs : List Byte) : ∀ w ∈ chunkWords bs, w.kind = .byte := by
  induction bs using chunkWords.induct with
  | case1 => simp [chunkWords]
  | case2 b => simp [chunkWords, byteWord]
  | case3 b c rest ih => simpa [chunkWords, byteWord] using ih

theorem chunkWords_last (bs : List Byte) :
    (chunkWords bs).map (fun w => w.last) = lastFlags bs.length := by
  induction bs using chunkWords.induct with
  | case1 => rfl
  | case2 b => rfl
  | case3 b c rest ih => simpa [chunkWords, byteWord, lastFlags_succ_succ] using ih

theorem splitWords_data (ls : List Nat) (bs : List Byte) :
    (splitWords ls bs).map (fun w => w.data) = bs.take ls.sum := by
  induction ls generalizing bs with
  | nil => rfl
  | cons l ls ih => simp [splitWords, chunkWords_data, ih, List.take_add]

theorem splitWords_kind (ls : List Nat) (bs : List Byte) :
    ∀ w ∈ splitWords ls bs, w.kind = .byte := by
  induction ls generalizing bs with
  | nil => simp [splitWords]
  | cons l ls ih =>
    intro w hw
    rcases List.mem_append.mp hw with hchunk | hrest
    · exact chunkWords_kind _ w hchunk
    · exact ih _ w hrest

/-- Where the lengths stay within the string, each chunk is as long as its length says. -/
theorem splitWords_last (ls : List Nat) (bs : List Byte) (h : ls.sum ≤ bs.length) :
    (splitWords ls bs).map (fun w => w.last) = ls.flatMap lastFlags := by
  induction ls generalizing bs with
  | nil => rfl
  | cons l ls ih =>
    rw [List.sum_cons] at h
    have hchunk : (bs.take l).length = l := by rw [List.length_take]; omega
    have hrest : ls.sum ≤ (bs.drop l).length := by rw [List.length_drop]; omega
    rw [splitWords, List.map_append, chunkWords_last, hchunk, ih _ hrest, List.flatMap_cons]

/-- The interleaved stream is twice as long as the shorter of the two strings. -/
theorem interleave_length (ds ks : List Byte) :
    (interleave ds ks).length = 2 * min ds.length ks.length := by
  induction ds generalizing ks with
  | nil => simp [interleave]
  | cons d ds ih =>
    cases ks with
    | nil => simp [interleave]
    | cons k ks =>
      simp only [interleave, List.length_cons, ih]
      omega

/-- Stream byte `2i` is data byte `i`, and `2i + 1` key byte `i` (R112, R243). -/
theorem interleave_getElem? (ds ks : List Byte) {i : Nat} (hd : i < ds.length) (hk : i < ks.length) :
    (interleave ds ks)[2 * i]? = ds[i]? ∧ (interleave ds ks)[2 * i + 1]? = ks[i]? := by
  induction ds generalizing ks i with
  | nil => exact absurd hd (Nat.not_lt_zero i)
  | cons d ds ih =>
    cases ks with
    | nil => exact absurd hk (Nat.not_lt_zero i)
    | cons k ks =>
      cases i with
      | zero => exact ⟨rfl, rfl⟩
      | succ i => exact ih ks (Nat.lt_of_succ_lt_succ hd) (Nat.lt_of_succ_lt_succ hk)

/-- Settles O48, by induction on the string of a chunk, on the lengths of a SPLIT and on the two strings of
a PAIRS. -/
theorem traceMacros : Obligations.TraceMacros := by
  refine ⟨fun ls bs => ⟨splitWords_data ls bs, splitWords_kind ls bs, splitWords_last ls bs⟩,
    chunkWords_last, fun ds ks hlen => ⟨?_, fun i hi => ?_, fun ls => rfl⟩⟩
  · rw [interleave_length, Nat.min_eq_left hlen]
  · exact interleave_getElem? ds ks hi (by omega)

end Sys2Proof.Machine
end

section
/-! SUPPORT. The rules of the combinational units, one per case of each definition: the codec byte by byte and value
by value, the transform as the addition and the subtraction of the values modulo 27, and the pair operation for a
pair that converts and for one that does not. Then the statements about them. -/

namespace Sys2Proof.Machine

/-! ### The alphabet codec (R160 to R164) -/

theorem sym2val_letter {b : Byte} (hlo : 0x41 ≤ b.toNat) (hhi : b.toNat ≤ 0x5A) :
    sym2val b = some (Fin.ofNat 27 (b.toNat - 0x41)) :=
  if_pos ⟨hlo, hhi⟩

theorem sym2val_space : sym2val 0x20 = some 26 := rfl

theorem sym2val_invalid {b : Byte} (hletter : ¬(0x41 ≤ b.toNat ∧ b.toNat ≤ 0x5A)) (hspace : b ≠ 0x20) :
    sym2val b = none := by
  rw [sym2val, if_neg hletter]
  exact if_neg hspace

/-- The value of a letter is its place in the alphabet: the difference is below 27, so nothing is reduced. -/
theorem letterValue_val {b : Byte} (hhi : b.toNat ≤ 0x5A) :
    (Fin.ofNat 27 (b.toNat - 0x41)).val = b.toNat - 0x41 :=
  Nat.mod_eq_of_lt (by omega)

theorem val2sym_letter {v : Nat} (h : v ≤ 25) : val2sym v = BitVec.ofNat 8 (0x41 + v) :=
  if_pos h

theorem val2sym_letter_toNat {v : Nat} (h : v ≤ 25) : (val2sym v).toNat = 0x41 + v := by
  rw [val2sym_letter h, BitVec.toNat_ofNat, Nat.mod_eq_of_lt (by omega)]

theorem val2sym_space : val2sym 26 = 0x20 := rfl

/-- A byte that converts is the symbol of its value. -/
theorem val2sym_of_sym2val {b : Byte} {v : Fin 27} (h : sym2val b = some v) : val2sym v.val = b := by
  by_cases hletter : 0x41 ≤ b.toNat ∧ b.toNat ≤ 0x5A
  · obtain ⟨hlo, hhi⟩ := hletter
    rw [sym2val_letter hlo hhi] at h
    cases h
    apply BitVec.eq_of_toNat_eq
    rw [letterValue_val hhi, val2sym_letter_toNat (by omega)]
    omega
  · by_cases hspace : b = 0x20
    · subst hspace
      cases h
      exact val2sym_space
    · rw [sym2val_invalid hletter hspace] at h
      cases h

/-- The symbol of a value converts to it: a letter up to 25, the space for 26. -/
theorem sym2val_val2sym (v : Fin 27) : sym2val (val2sym v.val) = some v := by
  by_cases hv : v.val ≤ 25
  · have hbyte : (val2sym v.val).toNat = 0x41 + v.val := val2sym_letter_toNat hv
    rw [sym2val_letter (by omega) (by omega), hbyte, Nat.add_sub_cancel_left]
    exact congrArg some (Fin.ofNat_val_eq_self v)
  · obtain rfl : v = 26 := Fin.ext (show v.val = 26 by omega)
    exact sym2val_space

/-- Settles O1, by the three clauses of R160. -/
theorem symbolValues : Obligations.SymbolValues := fun _ =>
  ⟨fun hlo hhi => ⟨_, sym2val_letter hlo hhi, letterValue_val hhi⟩,
    fun hspace => hspace ▸ sym2val_space, sym2val_invalid⟩

/-- Settles O2: from a byte by the clauses of R160, from a value by those of R162. -/
theorem alphabetRoundTrip : Obligations.AlphabetRoundTrip :=
  ⟨fun _ _ => val2sym_of_sym2val, sym2val_val2sym⟩

/-! ### The cipher transform (R165 to R167, R171) -/

theorem xform_enc_val (d k : Fin 27) : (xform d k .enc).val = (d.val + k.val) % 27 := rfl

theorem xform_dec_val (d k : Fin 27) : (xform d k .dec).val = (d.val + 27 - k.val) % 27 := rfl

/-- ENC is the addition of the group of values modulo 27. -/
theorem xform_enc (d k : Fin 27) : xform d k .enc = d + k := rfl

/-- DEC is its subtraction. -/
theorem xform_dec (d k : Fin 27) : xform d k .dec = d - k := by
  apply Fin.ext
  rw [xform_dec_val, Fin.val_sub]
  omega

/-- The one key value under which the transform takes `d` to `v` (R171). -/
def keyTaking (d v : Fin 27) : Dir → Fin 27
  | .enc => v - d
  | .dec => d - v

theorem xform_eq_iff (d k v : Fin 27) (dir : Dir) : xform d k dir = v ↔ k = keyTaking d v dir := by
  cases dir with
  | enc => rw [xform_enc, keyTaking, eq_sub_iff_add_eq']
  | dec => rw [xform_dec, keyTaking, sub_eq_iff_comm, eq_comm]

/-- Settles O3: the values are the natural remainders, and `k ≤ d + 27` makes the difference the integers' own. -/
theorem transformValues : Obligations.TransformValues := by
  intro d k
  rw [xform_enc_val, xform_dec_val]
  constructor <;> omega

/-- Settles O4, in the group of values modulo 27. -/
theorem transformInverse : Obligations.TransformInverse := by
  intro d k
  simp only [xform_enc, xform_dec]
  exact ⟨add_sub_cancel_right d k, sub_add_cancel d k⟩

/-- Settles O5: the equation has one solution in the key. -/
theorem transformKeyBijective : Obligations.TransformKeyBijective := fun d dir v =>
  ⟨keyTaking d v dir, (xform_eq_iff d _ v dir).mpr rfl, fun k => (xform_eq_iff d k v dir).mp⟩

/-! ### The pair operation (R168) -/

theorem pairop_converts (dir : Dir) (pol : Policy) {db kb : Byte} {dv kv : Fin 27}
    (hd : sym2val db = some dv) (hk : sym2val kb = some kv) :
    pairop dir pol db kb = .out (val2sym (xform dv kv dir).val) := by
  rw [pairop, hd, hk]

/-- A pair of which one byte does not convert is left to the policy. -/
theorem pairop_not_converts (dir : Dir) (pol : Policy) {db kb : Byte}
    (h : sym2val db = none ∨ sym2val kb = none) : pairop dir pol db kb = policyResult pol := by
  rcases h with hd | hk
  · simp [pairop, hd]
  · simp [pairop, hk]

/-- Settles O8, by whether both bytes convert. -/
theorem pairOperation : Obligations.PairOperation := by
  intro dir pol db kb
  refine ⟨fun dv kv => pairop_converts dir pol, fun h => ?_⟩
  rw [pairop_not_converts dir pol h]
  refine ⟨?_, ?_, ?_⟩ <;> rintro rfl <;> rfl

end Sys2Proof.Machine
end

section
/-! SUPPORT. What SE's operations do with the three words of the stream codec: a data byte, the sentinel at a data
position and a key byte (R180 to R182). Then the statements about them. -/

namespace Sys2Proof.Machine

/-- The shared operation `Close` leaves the registers that R287 lists. -/
theorem SE.close_eq_closedBy (u : SE) (x : Cause) : u.close x = u.closedBy x := by
  cases h : u.cv <;>
    simp [SE.close, SE.closedBy, SE.event, SE.emit, SE.clearCarry, h, beq_eq_decide]

section Rows
variable {s : State} {w : NetWord} {rest : List NetWord}

/-- The row of a BYTE word in ACTIVE (R130). -/
theorem decode_seVector_active_byte (hst : s.se.st = .active) (hkind : w.kind = .byte) :
    decode (.seDv (s.se.vector w)) =
      .ok (if s.se.cv then .seKey (w.data == s.se.sent)
        else if w.data == s.se.sent then .seTerm else .seData) := by
  simp only [decode, decodeSe_vector, seOperation, hst, hkind]

theorem execSeData_enabled (h : SeHas s w rest 0) :
    exec .seData s = .next { s with se := { s.se with rx := rest, cb := w.data, cv := true } } := by
  obtain ⟨hw, hroom⟩ := h
  simp only [exec, execSeData]
  exact seTake_enabled hw hroom

/-- The sentinel is echoed, and then SE closes (R181). -/
theorem execSeTerm_enabled (h : SeHas s w rest 2) :
    exec .seTerm s = .next { s with
      se := (SE.emit { s.se with rx := rest, ts := true } (byteWord false s.se.sent)).closedBy
        .term } := by
  obtain ⟨hw, hroom⟩ := h
  simp only [exec, execSeTerm, ← SE.close_eq_closedBy]
  exact seTake_enabled hw hroom

/-- SE_KEY needs room for the answer `a` of its pair, and leaves what that answer does (R182). -/
theorem execSeKey_enabled {a : PairResult} {v : SE} (sm : Bool) (h : SeHas s w rest (pairWords a))
    (ha : keyPair s.se w = a) (hv : keyStep { s.se with rx := rest } w = v) :
    exec (.seKey sm) s = .next { s with se := v } := by
  obtain ⟨hw, hroom⟩ := h
  subst ha hv
  simp only [exec, execSeKey]
  exact seTake_enabled hw hroom

end Rows

/-- Settles O13: an enabled `seTake` that writes the carry. -/
theorem dataByteCarried : Obligations.DataByteCarried := by
  intro s w rest h hst hcv hkind hdata
  exact ⟨by simp [decode_seVector_active_byte hst hkind, hcv, hdata], execSeData_enabled h⟩

/-- Settles O14: the echo of the sentinel and then a close that drops no carried byte. -/
theorem sentinelTerminates : Obligations.SentinelTerminates := by
  intro s w rest h hst hcv hkind hdata
  refine ⟨by simp [decode_seVector_active_byte hst hkind, hcv, hdata], ?_⟩
  rw [execSeTerm_enabled h]
  simp [SE.closedBy, hcv, byteWord, Cause.bits]

/-! ### The key byte (R182) -/

/-- SE once a pair that does not convert has been reported: the carry is empty, and INVALID_PAIR names the
policy. -/
def SE.invalidPair (u : SE) (p : Policy) : SE := u.clearCarry.event .invalidPair (0b00#2 ++ p.bits)

/-- What SE does with an answer of the pair operation. -/
def SE.answer (u : SE) : PairResult → SE
  | .out b => u.emit (byteWord false b)
  | .nothing => u
  | .abort => u.closedBy .invalid
  | .illegal => u.closedBy .cfgIllegal

theorem keyStep_eq_answer (u : SE) (w : NetWord) :
    keyStep u w = (if pairConverts u.cb w.data then u.clearCarry else u.invalidPair u.pol).answer
      (keyPair u w) := by
  unfold keyStep
  cases keyPair u w with
  | out | nothing => rfl
  | abort | illegal => exact SE.close_eq_closedBy _ _

section Key
variable {u : SE} {w : NetWord}

theorem keyPair_converts {dv kv : Fin 27} (hd : sym2val u.cb = some dv)
    (hk : sym2val w.data = some kv) : keyPair u w = .out (val2sym (xform dv kv u.dir).val) :=
  pairop_converts _ _ hd hk

theorem keyPair_not_converts {p : Policy} (hpol : u.pol = p)
    (h : sym2val u.cb = none ∨ sym2val w.data = none) : keyPair u w = policyResult p :=
  hpol ▸ pairop_not_converts _ _ h

/-- The symbol of a pair that converts is written, and nothing is reported. -/
theorem keyStep_converts {dv kv : Fin 27} (hd : sym2val u.cb = some dv)
    (hk : sym2val w.data = some kv) :
    keyStep u w = u.clearCarry.emit (byteWord false (val2sym (xform dv kv u.dir).val)) := by
  have hconv : pairConverts u.cb w.data = true := by simp [pairConverts, hd, hk]
  rw [keyStep_eq_answer, if_pos hconv, keyPair_converts hd hk]
  rfl

/-- A pair that does not convert is reported, and the policy answers. -/
theorem keyStep_not_converts {p : Policy} (hpol : u.pol = p)
    (h : sym2val u.cb = none ∨ sym2val w.data = none) :
    keyStep u w = (u.invalidPair p).answer (policyResult p) := by
  have hconv : ¬pairConverts u.cb w.data = true := by
    rcases h with h | h <;> simp [pairConverts, h]
  rw [keyStep_eq_answer, if_neg hconv, keyPair_not_converts hpol h, hpol]

end Key

section Exec
variable {s : State} {w : NetWord} {rest : List NetWord} (sm : Bool)

theorem execSeKey_converts {dv kv : Fin 27} (h : SeHas s w rest 1) (hd : sym2val s.se.cb = some dv)
    (hk : sym2val w.data = some kv) :
    exec (.seKey sm) s = .next { s with
      se := SE.emit { s.se with rx := rest, cv := false, cb := 0x00 }
        (byteWord false (val2sym (xform dv kv s.se.dir).val)) } :=
  execSeKey_enabled sm h (keyPair_converts hd hk) (keyStep_converts (u := { s.se with rx := rest }) hd hk)

theorem execSeKey_not_converts {p : Policy} (h : SeHas s w rest (pairWords (policyResult p)))
    (hpol : s.se.pol = p) (hinv : sym2val s.se.cb = none ∨ sym2val w.data = none) :
    exec (.seKey sm) s = .next { s with
      se := SE.answer (SE.invalidPair { s.se with rx := rest } p) (policyResult p) } :=
  execSeKey_enabled sm h (keyPair_not_converts hpol hinv)
    (keyStep_not_converts (u := { s.se with rx := rest }) hpol hinv)

end Exec

/-- Settles O15, by whether the pair converts, and by the policy where it does not. -/
theorem keyByteCompletesPair : Obligations.KeyByteCompletesPair := by
  intro s w rest hrx hst hcv hkind sm u
  refine ⟨by simp [decode_seVector_active_byte hst hkind, hcv, sm], fun dv kv hd hk h => ?converts,
    fun hinv => ⟨fun hpol h => ?skip, fun hpol h => ?mark, fun hpol h => ?abort⟩⟩
  case converts => exact execSeKey_converts sm h hd hk
  case skip | mark | abort => exact execSeKey_not_converts sm h hpol hinv

end Sys2Proof.Machine
end

section
/-! SUPPORT. SE reads the LAST bit of no word (R185): its move commutes with the erasing of those bits. Then the
statement about fragmentation. -/

namespace Sys2Proof.Machine

/-- The state without the LAST bits of the words waiting for SE. -/
def State.eraseLasts (s : State) : State := { s with se := s.se.eraseLasts }

theorem State.eraseLasts_rx (s : State) : s.eraseLasts.se.rx = s.se.rx.map eraseLast := rfl

theorem State.eraseLasts_rx_nil {s : State} (h : s.se.rx = []) : s.eraseLasts.se.rx = [] := by
  rw [State.eraseLasts_rx, h, List.map_nil]

theorem State.eraseLasts_rx_cons {s : State} {w : NetWord} {rest : List NetWord}
    (h : s.se.rx = w :: rest) : s.eraseLasts.se.rx = eraseLast w :: rest.map eraseLast := by
  rw [State.eraseLasts_rx, h, List.map_cons]

/-- An SE step with no word waiting is a hold. -/
theorem seTake_empty {need : SE → NetWord → Nat} {act : SE → NetWord → SE} {s : State}
    (h : s.se.rx = []) : seTake need act s = .next s := by
  simp [seTake, h]

theorem doMove_se_empty {s : State} (h : s.se.rx = []) : doMove .se s = .next s := by
  simp [doMove, unitStep, presented, h]

/-! ### The operations -/

theorem SE.eraseLasts_closedBy (u : SE) (x : Cause) :
    u.eraseLasts.closedBy x = (u.closedBy x).eraseLasts := rfl

theorem SE.eraseLasts_close (u : SE) (x : Cause) : u.eraseLasts.close x = (u.close x).eraseLasts := by
  simp only [SE.close_eq_closedBy, SE.eraseLasts_closedBy]

theorem SE.eraseLasts_answer (u : SE) (a : PairResult) :
    u.eraseLasts.answer a = (u.answer a).eraseLasts := by
  cases a <;> rfl

/-- SE_KEY reads a word's DATA alone (R182). -/
theorem keyStep_eraseLast (u : SE) (w : NetWord) :
    keyStep u.eraseLasts (eraseLast w) = (keyStep u w).eraseLasts := by
  rw [keyStep_eq_answer, keyStep_eq_answer, ← SE.eraseLasts_answer]
  cases h : pairConverts u.cb w.data <;> simp [SE.eraseLasts, eraseLast, h] <;> rfl

/-- An SE step whose need and effect do not read LAST. -/
theorem seTake_eraseLasts {need : SE → NetWord → Nat} {act : SE → NetWord → SE} (s : State)
    (hneed : ∀ u w, need (SE.eraseLasts u) (eraseLast w) = need u w)
    (hact : ∀ u w, act (SE.eraseLasts u) (eraseLast w) = (act u w).eraseLasts) :
    seTake need act s.eraseLasts = Machine.eraseLasts (seTake need act s) := by
  cases hrx : s.se.rx with
  | nil => rw [seTake_empty hrx, seTake_empty (State.eraseLasts_rx_nil hrx)]; rfl
  | cons w rest =>
    have hrx' := State.eraseLasts_rx_cons hrx
    have hneed' : need s.eraseLasts.se (eraseLast w) = need s.se w := hneed _ _
    by_cases hroom : s.se.tx.length + need s.se w ≤ s.params.obuf
    · rw [seTake_enabled hrx hroom, seTake_enabled hrx' (hneed'.symm ▸ hroom)]
      exact congrArg (fun u => Host.Outcome.next { s with se := u }) (hact { s.se with rx := rest } w)
    · rw [seTake_noRoom hrx hroom, seTake_noRoom hrx' (by rw [hneed']; exact hroom)]
      rfl

/-- No operation of SE reads LAST. -/
theorem exec_eraseLasts {i : Instr} (hi : inputOf i = .seRx ∨ inputOf i = .unreachable) (s : State) :
    exec i s.eraseLasts = eraseLasts (exec i s) := by
  cases i with
  | seHsOk | seData | seDiscard =>
    simp only [exec, execSeHsOk, execSeData, execSeDiscard]
    exact seTake_eraseLasts s (fun _ _ => rfl) fun _ _ => rfl
  | seEof | seIoerr =>
    simp only [exec, execSeEof, execSeIoerr]
    exact seTake_eraseLasts s (fun _ _ => rfl) fun u _ => u.eraseLasts_close _
  | seHsBad | seHsEof | seHsErr | seTerm =>
    simp only [exec, execSeHsBad, execSeHsEof, execSeHsErr, execSeTerm]
    exact seTake_eraseLasts s (fun _ _ => rfl) fun _ _ => by rw [← SE.eraseLasts_close]; rfl
  | seIllegal =>
    simp only [exec, execSeIllegal]
    refine seTake_eraseLasts s (fun _ _ => rfl) fun u _ => ?_
    rw [← SE.eraseLasts_close]
    change SE.close (if u.st = .awaitHs then _ else _) _ = _
    split <;> rfl
  | seKey =>
    simp only [exec, execSeKey]
    exact seTake_eraseLasts s (fun _ _ => rfl) keyStep_eraseLast
  | seReservedState => rfl
  | _ => simp [inputOf] at hi

/-! ### SE's move -/

/-- A word and its copy without LAST form one vector (R130). -/
theorem SE.vector_eraseLast (u : SE) (w : NetWord) :
    u.eraseLasts.vector (eraseLast w) = u.vector w := rfl

theorem doMove_se_eraseLasts (s : State) :
    doMove .se s.eraseLasts = eraseLasts (doMove .se s) := by
  cases hrx : s.se.rx with
  | nil => rw [doMove_se_empty hrx, doMove_se_empty (State.eraseLasts_rx_nil hrx)]; rfl
  | cons w rest =>
    have hrx' := State.eraseLasts_rx_cons hrx
    obtain ⟨-, hword⟩ := decodeSe_isWordOf (s.se.vector w)
    rw [doMove_se hrx, doMove_se hrx', ← exec_eraseLasts (inputOf_of_seDv hword)]
    rfl

/-- SE's move leaves the script. -/
theorem doMove_se_script {s t : State} (h : doMove .se s = .next t) : t.script = s.script := by
  rcases unitStep_cases h with rfl | ⟨v, i, -, -, he⟩
  · rfl
  · obtain ⟨-, -, -, -, -, -, -, hscript, -⟩ := operationsKeepToTheirUnit i _ t he
    exact hscript

theorem runMove_se_eraseLasts (k : Nat) (s : State) :
    runMove k .se s.eraseLasts = eraseLasts (runMove k .se s) := by
  induction k generalizing s with
  | zero => rfl
  | succ k ih =>
    have hmove : doMove .se { s.eraseLasts with script := List.replicate k .se } =
        eraseLasts (doMove .se { s with script := List.replicate k .se }) :=
      doMove_se_eraseLasts { s with script := List.replicate k .se }
    rw [runMove_succ, runMove_succ, hmove]
    cases hnext : doMove .se { s with script := List.replicate k .se } with
    | next t =>
      have hscript : t.script = List.replicate k .se := doMove_se_script hnext
      have h := ih t
      rw [← run_of_script hscript, ← run_of_script (s := t.eraseLasts) hscript] at h
      exact h
    | fault | refused => rfl

/-- Settles O44: the two runs are one run of the state without the LAST bits. -/
theorem fragmentationInvariance : Obligations.FragmentationInvariance := by
  intro k s rx hrx
  rw [← runMove_se_eraseLasts, ← runMove_se_eraseLasts]
  simp only [State.eraseLasts, SE.eraseLasts, hrx]

end Sys2Proof.Machine
end

section
/-! SUPPORT. A whole valid session of the stream codec: what SE writes for one pair of symbols, by induction for the
whole interleaved stream, and the inverse of the cipher. Then the statements about sessions. -/

namespace Sys2Proof.Machine

/-! ### The reference output (R192) -/

theorem cipherByte_of_values (dir : Dir) {d k : Byte} {dv kv : Fin 27} (hd : sym2val d = some dv)
    (hk : sym2val k = some kv) : cipherByte dir d k = val2sym (xform dv kv dir).val := by
  rw [cipherByte, hd, hk]

theorem sym2val_cipherByte (dir : Dir) {d k : Byte} {dv kv : Fin 27} (hd : sym2val d = some dv)
    (hk : sym2val k = some kv) : sym2val (cipherByte dir d k) = some (xform dv kv dir) := by
  rw [cipherByte_of_values dir hd hk, sym2val_val2sym]

/-- The cipher of two symbols is a symbol. -/
theorem isSymbol_cipherByte (dir : Dir) {d k : Byte} (hd : IsSymbol d) (hk : IsSymbol k) :
    IsSymbol (cipherByte dir d k) := by
  obtain ⟨dv, hd⟩ := Option.isSome_iff_exists.mp hd
  obtain ⟨kv, hk⟩ := Option.isSome_iff_exists.mp hk
  exact Option.isSome_iff_exists.mpr ⟨_, sym2val_cipherByte dir hd hk⟩

/-- DEC undoes ENC under the same key byte (R164, R167). -/
theorem cipherByte_dec_enc {d k : Byte} (hd : IsSymbol d) (hk : IsSymbol k) :
    cipherByte .dec (cipherByte .enc d k) k = d := by
  obtain ⟨dv, hd⟩ := Option.isSome_iff_exists.mp hd
  obtain ⟨kv, hk⟩ := Option.isSome_iff_exists.mp hk
  obtain ⟨hinverse, -⟩ := transformInverse dv kv
  rw [cipherByte_of_values .dec (sym2val_cipherByte .enc hd hk) hk, hinverse, val2sym_of_sym2val hd]

/-- The bytes SE writes for data `ds` and key `ks` (R192). -/
def cipherBytes (dir : Dir) (ds ks : List Byte) : List Byte := List.zipWith (cipherByte dir) ds ks

theorem cipherBytes_length (dir : Dir) {ds ks : List Byte} (h : ds.length ≤ ks.length) :
    (cipherBytes dir ds ks).length = ds.length := by
  rw [cipherBytes, List.length_zipWith, Nat.min_eq_left h]

theorem isSymbol_of_mem_cipherBytes (dir : Dir) {ds ks : List Byte} (hds : ∀ b ∈ ds, IsSymbol b)
    (hks : ∀ b ∈ ks, IsSymbol b) : ∀ b ∈ cipherBytes dir ds ks, IsSymbol b := by
  induction ds generalizing ks with
  | nil => simp [cipherBytes]
  | cons d ds ih =>
    cases ks with
    | nil => simp [cipherBytes]
    | cons k ks =>
      obtain ⟨hd, hds⟩ := List.forall_mem_cons.mp hds
      obtain ⟨hk, hks⟩ := List.forall_mem_cons.mp hks
      exact List.forall_mem_cons.mpr ⟨isSymbol_cipherByte dir hd hk, ih hds hks⟩

theorem cipherBytes_dec_enc {ds ks : List Byte} (hds : ∀ b ∈ ds, IsSymbol b)
    (hks : ∀ b ∈ ks, IsSymbol b) (hlen : ds.length ≤ ks.length) :
    cipherBytes .dec (cipherBytes .enc ds ks) ks = ds := by
  induction ds generalizing ks with
  | nil => rfl
  | cons d ds ih =>
    cases ks with
    | nil => exact absurd hlen (Nat.not_succ_le_zero _)
    | cons k ks =>
      obtain ⟨hd, hds⟩ := List.forall_mem_cons.mp hds
      obtain ⟨hk, hks⟩ := List.forall_mem_cons.mp hks
      exact congrArg₂ List.cons (cipherByte_dec_enc hd hk) (ih hds hks (Nat.le_of_succ_le_succ hlen))

/-! ### The moves of a session -/

section Moves
variable {s : State} {w : NetWord} {rest : List NetWord}

/-- A run of SE's moves begins with the operation that its oldest word decodes to, which writes SE alone. -/
theorem runMove_se_succ {k : Nat} {i : Instr} {u : SE} (hw : s.se.rx = w :: rest)
    (hdecode : decode (.seDv (s.se.vector w)) = .ok i)
    (hexec : exec i { s with script := List.replicate k .se } =
      .next { s with se := u, script := List.replicate k .se }) :
    runMove (k + 1) .se s = runMove k .se { s with se := u } := by
  have hmove : doMove .se { s with script := List.replicate k .se } =
      .next { s with se := u, script := List.replicate k .se } :=
    (unitStep_decoded (v := .seDv (s.se.vector w)) (by simp [presented, hw]) hdecode).trans hexec
  rw [runMove_succ, hmove]
  rfl

/-- A data byte is carried (R180). -/
theorem runMove_dataByte (k : Nat) (h : SeHas s w rest 0) (hst : s.se.st = .active)
    (hcv : s.se.cv = false) (hkind : w.kind = .byte) (hdata : w.data ≠ s.se.sent) :
    runMove (k + 1) .se s =
      runMove k .se { s with se := { s.se with rx := rest, cb := w.data, cv := true } } := by
  obtain ⟨hdecode, hexec⟩ :=
    dataByteCarried { s with script := List.replicate k .se } w rest h hst hcv hkind hdata
  exact runMove_se_succ h.1 hdecode hexec

/-- A key byte that makes a pair of symbols writes its cipher byte (R182). -/
theorem runMove_keyByte (k : Nat) (h : SeHas s w rest 1) (hst : s.se.st = .active)
    (hcv : s.se.cv = true) (hkind : w.kind = .byte) (hd : IsSymbol s.se.cb) (hk : IsSymbol w.data) :
    runMove (k + 1) .se s = runMove k .se { s with
      se := { s.se with
        rx := rest, cv := false, cb := 0x00
        tx := s.se.tx ++ [byteWord false (cipherByte s.se.dir s.se.cb w.data)] } } := by
  obtain ⟨dv, hd⟩ := Option.isSome_iff_exists.mp hd
  obtain ⟨kv, hk⟩ := Option.isSome_iff_exists.mp hk
  obtain ⟨hdecode, hexec, -⟩ :=
    keyByteCompletesPair { s with script := List.replicate k .se } w rest h.1 hst hcv hkind
  rw [cipherByte_of_values _ hd hk]
  exact runMove_se_succ h.1 hdecode (hexec dv kv hd hk h)

/-- The sentinel at a data position is echoed and closes SE (R181). -/
theorem runMove_sentinel (h : SeHas s w rest 2) (hst : s.se.st = .active) (hcv : s.se.cv = false)
    (hkind : w.kind = .byte) (hdata : w.data = s.se.sent) :
    ∃ t, runMove 1 .se s = .next t ∧
      t.se.tx = s.se.tx ++ [byteWord false s.se.sent, closeWord] ∧
      t.se.rx = rest ∧ t.se.st = .closed ∧ t.se.ts = true ∧ t.se.cause = .term := by
  obtain ⟨hdecode, hexec⟩ := sentinelTerminates { s with script := [] } w rest h hst hcv hkind hdata
  exact ⟨_, (runMove_se_succ (k := 0) h.1 hdecode hexec).trans (runMove_zero _ _), rfl, rfl, rfl, rfl, rfl⟩

end Moves

/-! ### The whole session -/

/-- SE is to serve a session: it is ACTIVE at a data position, its sentinel is no symbol, the interleaved stream of
`ds` and `ks` and the sentinel wait for it, with any LAST bits, and it has room for what it writes. -/
structure State.ServesStream (s : State) (ds ks : List Byte) : Prop where
  active : s.se.st = .active
  no_carry : s.se.cv = false
  sentinel : sym2val s.se.sent = none
  bytes : ∀ w ∈ s.se.rx, w.kind = .byte
  stream : s.se.rx.map (fun w => w.data) = interleave ds ks ++ [s.se.sent]
  room : s.se.tx.length + ds.length + 2 ≤ s.params.obuf

/-- A symbol is not the sentinel of a legal configuration (R220). -/
theorem ne_of_isSymbol {b sent : Byte} (hb : IsSymbol b) (hsent : sym2val sent = none) : b ≠ sent := by
  rintro rfl
  exact absurd hb (by simp [hsent])

/-- One pair of a session: two moves write its cipher byte and leave the session of the other pairs (R180, R182). -/
theorem State.ServesStream.runMove_pair {s : State} {d k : Byte} {ds ks : List Byte}
    (h : s.ServesStream (d :: ds) (k :: ks)) (hd : IsSymbol d) (hk : IsSymbol k) (n : Nat) :
    ∃ t, runMove (n + 2) .se s = runMove n .se t ∧ t.ServesStream ds ks ∧
      t.se.dir = s.se.dir ∧ t.se.sent = s.se.sent ∧
      t.se.tx = s.se.tx ++ [byteWord false (cipherByte s.se.dir d k)] := by
  have hstream := h.stream
  rw [interleave, List.cons_append, List.cons_append] at hstream
  obtain ⟨wd, _, hrx, rfl, htail⟩ := List.map_eq_cons_iff.mp hstream
  obtain ⟨wk, rest, rfl, rfl, hrest⟩ := List.map_eq_cons_iff.mp htail
  have hbytes := h.bytes
  rw [hrx] at hbytes
  obtain ⟨hwd, hbytes⟩ := List.forall_mem_cons.mp hbytes
  obtain ⟨hwk, hbytes⟩ := List.forall_mem_cons.mp hbytes
  have hroom := h.room
  rw [List.length_cons] at hroom
  have hdata := runMove_dataByte (n + 1) ⟨hrx, by omega⟩ h.active h.no_carry hwd
    (ne_of_isSymbol hd h.sentinel)
  have hkey := runMove_keyByte (rest := rest) n
    (s := { s with se := { s.se with rx := wk :: rest, cb := wd.data, cv := true } })
    ⟨rfl, by simp only; omega⟩ h.active rfl hwk hd hk
  refine ⟨_, hdata.trans hkey, ⟨h.active, rfl, h.sentinel, hbytes, hrest, ?_⟩, rfl, rfl, rfl⟩
  simp only [List.length_append, List.length_singleton]
  omega

/-- The output of a whole session, pair by pair and then the sentinel. -/
theorem State.ServesStream.runMove_session {ds ks : List Byte} (hds : ∀ b ∈ ds, IsSymbol b)
    (hks : ∀ b ∈ ks, IsSymbol b) (hlen : ds.length ≤ ks.length) {s : State}
    (h : s.ServesStream ds ks) :
    ∃ t, runMove (2 * ds.length + 1) .se s = .next t ∧
      t.se.tx = s.se.tx ++ (cipherBytes s.se.dir ds ks).map (byteWord false) ++
        [byteWord false s.se.sent, closeWord] ∧
      t.se.rx = [] ∧ t.se.st = .closed ∧ t.se.ts = true ∧ t.se.cause = .term := by
  induction ds generalizing ks s with
  | nil =>
    obtain ⟨w, rest, hrx, hdata, hrest⟩ := List.map_eq_cons_iff.mp h.stream
    obtain rfl := List.map_eq_nil_iff.mp hrest
    have hroom := h.room
    simpa [cipherBytes] using runMove_sentinel ⟨hrx, by simpa using hroom⟩ h.active h.no_carry
      (h.bytes w (by simp [hrx])) hdata
  | cons d ds ih =>
    cases ks with
    | nil => exact absurd hlen (Nat.not_succ_le_zero _)
    | cons k ks =>
      obtain ⟨hd, hds⟩ := List.forall_mem_cons.mp hds
      obtain ⟨hk, hks⟩ := List.forall_mem_cons.mp hks
      obtain ⟨t, hpair, ht, hdir, hsent, htx⟩ := h.runMove_pair hd hk (2 * ds.length + 1)
      obtain ⟨r, hrun, hrtx, hend⟩ := ih hds hks (Nat.le_of_succ_le_succ hlen) ht
      refine ⟨r, hpair.trans hrun, ?_, hend⟩
      simp [hrtx, htx, hdir, hsent, cipherBytes]

/-- Settles O45, by induction on the pairs. -/
theorem wholeSessionOutput : Obligations.WholeSessionOutput := by
  intro s ds ks hst hcv hlen hds hks hsent hbytes hstream hroom
  exact State.ServesStream.runMove_session hds hks hlen ⟨hst, hcv, hsent, hbytes, hstream, hroom⟩

theorem byteWord_injective (last : Bool) : Function.Injective (byteWord last) := fun _ _ h =>
  congrArg NetWord.data h

/-- Settles O46: what the ENC session wrote are the cipher bytes, which are symbols, and the DEC session writes
their cipher bytes, which are the data. -/
theorem sessionRoundTrip : Obligations.SessionRoundTrip := by
  intro e d ps ks cs t hps hks hlen hest hecv hedir hesent hebytes hestream heroom hrun hcs
    hdst hdcv hddir hdsent hdbytes hdstream hdroom
  obtain ⟨t', hrun', htx, -⟩ := State.ServesStream.runMove_session hps hks hlen
    ⟨hest, hecv, hesent, hebytes, hestream, heroom⟩
  cases hrun.symm.trans hrun'
  obtain rfl : cs = cipherBytes .enc ps ks := by
    rw [hcs, hedir, List.append_cancel_right_eq, List.append_cancel_left_eq] at htx
    exact (byteWord_injective false).list_map htx
  have hclen := cipherBytes_length .enc hlen
  obtain ⟨r, hrun, hrtx, -⟩ := State.ServesStream.runMove_session
    (isSymbol_of_mem_cipherBytes .enc hps hks) hks (hclen ▸ hlen)
    ⟨hdst, hdcv, hdsent, hdbytes, hdstream, hclen.symm ▸ hdroom⟩
  rw [hclen] at hrun
  rw [hddir, cipherBytes_dec_enc hps hks hlen] at hrtx
  exact ⟨r, hrun, hrtx⟩

end Sys2Proof.Machine
end

section
/-! SUPPORT. The handshake at SE and at CF (R200 to R208, R251): the row of each word, and one rule for every way a
unit rejects its peer. Then the statements about them. -/

namespace Sys2Proof.Machine

/-! ### SE in AWAIT_HS (R200 to R203) -/

section Server
variable {s : State} {w : NetWord} {rest : List NetWord}

/-- The row SE's vector names, with its state and the word's kind given (R130). -/
theorem decode_seVector {st : SeSt} {kind : Kind} (hst : s.se.st = st) (hkind : w.kind = kind) :
    decode (.seDv (s.se.vector w)) = .ok (seOperation st s.se.cv kind (w.data == s.se.sent)) := by
  subst hst hkind
  exact congrArg Except.ok (decodeSe_vector _ _)

theorem decode_seVector_handshake_match (hst : s.se.st = .awaitHs) (hkind : w.kind = .byte)
    (hdata : w.data = s.se.sent) :
    decode (.seDv (s.se.vector w)) = .ok (.seHsOk s.se.cv) := by
  simp [decode_seVector hst hkind, seOperation, hdata]

theorem decode_seVector_handshake_mismatch (hst : s.se.st = .awaitHs) (hkind : w.kind = .byte)
    (hdata : w.data ≠ s.se.sent) :
    decode (.seDv (s.se.vector w)) = .ok (.seHsBad s.se.cv) := by
  simp [decode_seVector hst hkind, seOperation, hdata]

/-- The echo is written and SE goes ACTIVE (R200). -/
theorem execSeHsOk_enabled (cv : Bool) (h : SeHas s w rest 1) :
    exec (.seHsOk cv) s = .next { s with
      se := SE.event { SE.emit { s.se with rx := rest } (byteWord false s.se.sent) with st := .active }
        .hsAccept 0x0 } := by
  obtain ⟨hw, hroom⟩ := h
  simp only [exec, execSeHsOk]
  exact seTake_enabled hw hroom

/-- The one way SE rejects a handshake: HS_REJECT with the cause, and then the close with that cause
(R201 to R203). -/
theorem seTake_reject_enabled (x : Cause) (h : SeHas s w rest 1) :
    seTake (fun _ _ => 1) (fun u _ => (u.event .hsReject x.bits).close x) s = .next { s with
      se := (SE.event { s.se with rx := rest } .hsReject x.bits).closedBy x } := by
  obtain ⟨hw, hroom⟩ := h
  simp only [← SE.close_eq_closedBy]
  exact seTake_enabled hw hroom

end Server

/-- Settles O11: SENT is echoed, and the match makes the echo equal to the byte received. -/
theorem handshakeAccepted : Obligations.HandshakeAccepted := by
  intro s w rest h hst hkind hdata
  exact ⟨decode_seVector_handshake_match hst hkind hdata, execSeHsOk_enabled _ h⟩

/-- Settles O12: the three rows reject in one way, each with its own cause. -/
theorem handshakeRejected : Obligations.HandshakeRejected := by
  intro s w rest h hst
  refine ⟨fun hkind hdata => ⟨decode_seVector_handshake_mismatch hst hkind hdata, ?mismatch⟩,
    fun hkind => ⟨decode_seVector hst hkind, ?eof⟩, fun hkind => ⟨decode_seVector hst hkind, ?ioerr⟩⟩
  case mismatch | eof | ioerr => exact seTake_reject_enabled _ h

/-! ### CF in HS_WAIT (R205 to R208, R251) -/

/-- The shared operation `Fail` leaves the registers that R288 lists, with a CLOSE in HS_WAIT and STREAM alone. -/
theorem CF.fails_eq_failedBy (c : CF) (x : Cause) :
    c.fails x = c.failedBy x (decide (c.cst = .hsWait ∨ c.cst = .stream)) := by
  by_cases h : c.cst = .hsWait ∨ c.cst = .stream <;>
    simp [CF.fails, CF.failedBy, CF.event, CF.emitRes, CF.emitNet, h]

/-- In HS_WAIT a failure writes a CLOSE. -/
theorem CF.fails_of_hsWait {c : CF} (hcst : c.cst = .hsWait) (x : Cause) : c.fails x = c.failedBy x true := by
  simp [CF.fails_eq_failedBy, hcst]

/-- In HS_WAIT a KIND-11 word is a handshake failure too (R251). -/
theorem netIllegalStep_hsWait {c : CF} (hcst : c.cst = .hsWait) (w : NetWord) :
    netIllegalStep c w = (c.event .hsReject Cause.illegalEvt.bits).fails .illegalEvt := by
  rw [netIllegalStep, if_pos hcst]

section Client
variable {s : State} {w : NetWord} {rest : List NetWord}

/-- The row CF's vector names for a net word, with its state and the word's kind given (R132). -/
theorem decode_cfNetVector {cst : CfSt} {kind : Kind} (hcst : s.cf.cst = cst) (hkind : w.kind = kind) :
    decode (.cfDv (s.cf.netVector w)) =
      cfNetOperation cst s.cf.ph s.cf.allSent kind (w.data == s.cf.sent) := by
  subst hcst hkind
  exact decodeCf_netVector _ _

theorem decode_cfNetVector_echo_match (hcst : s.cf.cst = .hsWait) (hkind : w.kind = .byte)
    (hdata : w.data = s.cf.sent) :
    decode (.cfDv (s.cf.netVector w)) = .ok (.cfHsOk s.cf.ph s.cf.allSent) := by
  simp [decode_cfNetVector hcst hkind, cfNetOperation, hdata]

theorem decode_cfNetVector_echo_mismatch (hcst : s.cf.cst = .hsWait) (hkind : w.kind = .byte)
    (hdata : w.data ≠ s.cf.sent) :
    decode (.cfDv (s.cf.netVector w)) = .ok (.cfHsBad s.cf.ph s.cf.allSent) := by
  simp [decode_cfNetVector hcst hkind, cfNetOperation, hdata]

/-- The echo is taken, nothing behind it, and the stream starts (R205). -/
theorem execCfHsOk_enabled (ph a : Bool) (h : CfHasNet s w rest 0 0) :
    exec (.cfHsOk ph a) s = .next { s with
      cf := CF.event { s.cf with nrx := rest, cst := .stream } .hsAccept 0x0 } := by
  obtain ⟨hw, hroom⟩ := h
  simp only [exec, execCfHsOk]
  exact cfTakeNet_enabled hw ((CF.hasRoom_iff ..).mpr hroom)

/-- In HS_WAIT an operation that may fail needs room for one CLOSE and one FAIL. -/
theorem cfTakeNet_hsWait_enabled {act : CF → NetWord → CF} (h : CfHasNet s w rest 1 1)
    (hcst : s.cf.cst = .hsWait) :
    cfTakeNet failNetWords (fun _ => 1) act s =
      .next { s with cf := act { s.cf with nrx := rest } w } := by
  obtain ⟨hw, hroom⟩ := h
  have hneed : failNetWords s.cf = 1 := if_pos (.inl hcst)
  exact cfTakeNet_enabled hw ((CF.hasRoom_iff ..).mpr (hneed ▸ hroom))

/-- The one way CF rejects an echo: HS_REJECT with the cause, and then the failure with that cause
(R206 to R208). -/
theorem cfTakeNet_reject_enabled (x : Cause) (h : CfHasNet s w rest 1 1) (hcst : s.cf.cst = .hsWait) :
    cfTakeNet failNetWords (fun _ => 1) (fun c _ => (c.event .hsReject x.bits).fails x) s = .next { s with
      cf := (CF.event { s.cf with nrx := rest } .hsReject x.bits).failedBy x true } := by
  rw [cfTakeNet_hsWait_enabled h hcst, CF.fails_of_hsWait]
  exact hcst

/-- A KIND-11 word is rejected in the same way (R251). -/
theorem execCfNetIllegal1_enabled (ph a sm : Bool) (h : CfHasNet s w rest 1 1)
    (hcst : s.cf.cst = .hsWait) :
    exec (.cfNetIllegal1 ph a sm) s = .next { s with
      cf := (CF.event { s.cf with nrx := rest } .hsReject Cause.illegalEvt.bits).failedBy .illegalEvt
        true } := by
  simp only [exec, execCfNetIllegal1]
  rw [cfTakeNet_hsWait_enabled h hcst, netIllegalStep_hsWait, CF.fails_of_hsWait] <;> exact hcst

end Client

/-- Settles O22: an enabled step that takes the echo alone. -/
theorem echoAccepted : Obligations.EchoAccepted := by
  intro s w rest h hcst hkind hdata
  exact ⟨decode_cfNetVector_echo_match hcst hkind hdata, execCfHsOk_enabled _ _ h⟩

/-- Settles O23: the four rows reject in one way, each with its own cause. -/
theorem echoRejected : Obligations.EchoRejected := by
  intro s w rest h hcst
  refine ⟨fun hkind hdata => ⟨decode_cfNetVector_echo_mismatch hcst hkind hdata, ?mismatch⟩,
    fun hkind => ⟨decode_cfNetVector hcst hkind, ?eof⟩, fun hkind => ⟨decode_cfNetVector hcst hkind, ?ioerr⟩,
    fun hkind => ⟨decode_cfNetVector hcst hkind, ?illegal⟩⟩
  case mismatch | eof | ioerr => exact cfTakeNet_reject_enabled _ h hcst
  case illegal => exact execCfNetIllegal1_enabled _ _ _ h hcst

end Sys2Proof.Machine
end

section
/-! SUPPORT. SE's connection handler (R220 to R226): the close by the policy code `11`, the two early ends of a
stream, the KIND-11 word and the words of a CLOSED SE. Then the statements about them. -/

namespace Sys2Proof.Machine

section Handler
variable {s : State} {w : NetWord} {rest : List NetWord}

/-- POL_ILLEGAL on an SE not yet CLOSED, with room for its CLOSE (R221). -/
theorem execPolIllegal_open (hst : s.se.st ≠ .closed) (hroom : s.se.tx.length + 1 ≤ s.params.obuf) :
    execPolIllegal s = .next { s with
      se := ({ s.se with pol := .illegal, cfgOk := false } : SE).closedBy .cfgIllegal } := by
  rw [execPolIllegal, if_neg hst, if_pos hroom, SE.close_eq_closedBy]

/-- What a close that is no TERM leaves of SE: `TS` with the other registers. -/
theorem SE.close_of_ne_term (u : SE) {x : Cause} (hx : x ≠ .term) :
    u.close x = { u with
      st := .closed, cause := x, cv := false, cb := 0x00, tx := u.tx ++ [closeWord]
      ev := u.ev ++ (if u.cv then [{ code := .carryDropped, arg := 0x0 }] else []) ++
        [{ code := .closed, arg := x.bits }] } := by
  simp [SE.close_eq_closedBy, SE.closedBy, hx]

/-- The end that an EOF or an IOERR makes of a stream (R222, R224). -/
theorem seTake_close_enabled {x : Cause} (hx : x ≠ .term) (h : SeHas s w rest 1) :
    seTake (fun _ _ => 1) (fun u _ => u.close x) s = .next { s with se := { s.se with
      rx := rest, st := .closed, cause := x, cv := false, cb := 0x00, tx := s.se.tx ++ [closeWord]
      ev := s.se.ev ++ (if s.se.cv then [{ code := .carryDropped, arg := 0x0 }] else []) ++
        [{ code := .closed, arg := x.bits }] } } := by
  obtain ⟨hw, hroom⟩ := h
  rw [seTake_enabled hw hroom, SE.close_of_ne_term _ hx]

/-- In AWAIT_HS a KIND-11 word is rejected like any other that is not the sentinel (R225). -/
theorem execSeIllegal_awaitHs (st0 cv sm : Bool) (h : SeHas s w rest 1) (hst : s.se.st = .awaitHs) :
    exec (.seIllegal st0 cv sm) s = .next { s with
      se := (SE.event { s.se with rx := rest } .hsReject Cause.illegalEvt.bits).closedBy .illegalEvt } := by
  obtain ⟨hw, hroom⟩ := h
  simp only [exec, execSeIllegal]
  rw [seTake_enabled hw hroom, if_pos hst, SE.close_eq_closedBy]

/-- After the handshake it only closes (R225). -/
theorem execSeIllegal_of_ne_awaitHs (st0 cv sm : Bool) (h : SeHas s w rest 1) (hst : s.se.st ≠ .awaitHs) :
    exec (.seIllegal st0 cv sm) s = .next { s with
      se := ({ s.se with rx := rest } : SE).closedBy .illegalEvt } := by
  obtain ⟨hw, hroom⟩ := h
  simp only [exec, execSeIllegal]
  rw [seTake_enabled hw hroom, if_neg hst, SE.close_eq_closedBy]

/-- A CLOSED SE takes the word and does nothing with it (R226). -/
theorem execSeDiscard_enabled (cv : Bool) (kind : BitVec 2) (sm : Bool) (h : SeHas s w rest 0) :
    exec (.seDiscard cv kind sm) s = .next { s with se := { s.se with rx := rest } } := by
  obtain ⟨hw, hroom⟩ := h
  simp only [exec, execSeDiscard]
  exact seTake_enabled hw hroom

end Handler

/-- Settles O10: the row POL_ILLEGAL, by whether SE is CLOSED. -/
theorem illegalPolicyCloses : Obligations.IllegalPolicyCloses := fun _ =>
  ⟨rfl, execPolIllegal_open, execPolIllegal_closed⟩

/-- Settles O16: the two rows close in one way, each with its own cause, and neither cause is TERM. -/
theorem streamEndsEarly : Obligations.StreamEndsEarly := by
  intro s w rest h hst
  exact ⟨fun hkind => ⟨decode_seVector hst hkind, seTake_close_enabled nofun h⟩,
    fun hkind => ⟨decode_seVector hst hkind, seTake_close_enabled nofun h⟩⟩

/-- Settles O17: the row of the KIND-11 word in either state, and what SE_ILLEGAL does there. -/
theorem illegalWordCloses : Obligations.IllegalWordCloses := by
  intro s w rest h hkind
  refine ⟨fun hst => ⟨decode_seVector hst hkind, execSeIllegal_awaitHs _ _ _ h hst⟩,
    fun hst => ⟨decode_seVector hst hkind, execSeIllegal_of_ne_awaitHs _ _ _ h ?_⟩⟩
  rw [hst]
  nofun

/-- Settles O18: the row that R130 has for every word of a CLOSED SE. -/
theorem closedDiscards : Obligations.ClosedDiscards := by
  intro s w rest h hst
  exact ⟨decode_seVector hst rfl, execSeDiscard_enabled _ _ _ h⟩

end Sys2Proof.Machine
end

section
/-! SUPPORT. Everything SE can do with the word at the head of `SE.rx`, case by case (R200 to R226). Then the
statements about SE's transitions and about what it writes. -/

namespace Sys2Proof.Machine

/-- The causes a session fails with: not TERM, and not CFG_ILLEGAL, which a reset step records (R282). -/
abbrev Cause.IsFailure (x : Cause) : Prop := x ≠ .none ∧ x ≠ .term ∧ x ≠ .cfgIllegal

/-! ### The words of a key byte's answer (R182, R229) -/

/-- The words SE writes for an answer of the pair operation. -/
def PairResult.words : PairResult → List NetWord
  | .out b => [byteWord false b]
  | .nothing => []
  | .abort | .illegal => [closeWord]

/-- The answers that close SE. -/
abbrev PairResult.Closes (a : PairResult) : Prop := a = .abort ∨ a = .illegal

theorem PairResult.length_words (a : PairResult) : a.words.length = pairWords a := by
  cases a <;> rfl

section Answer
variable (u : SE) (a : PairResult) (w : NetWord)

theorem SE.answer_tx : (u.answer a).tx = u.tx ++ a.words := by
  cases a with
  | nothing => exact (List.append_nil _).symm
  | out | abort | illegal => rfl

theorem SE.answer_st : (u.answer a).st = if a.Closes then .closed else u.st := by
  cases a <;> rfl

theorem keyStep_tx : (keyStep u w).tx = u.tx ++ (keyPair u w).words := by
  rw [keyStep_eq_answer, SE.answer_tx]
  split <;> rfl

theorem keyStep_st : (keyStep u w).st = if (keyPair u w).Closes then .closed else u.st := by
  rw [keyStep_eq_answer, SE.answer_st]
  congr 1
  split <;> rfl

/-- A pair answers a symbol, or what the policy says (R168). -/
theorem keyPair_cases :
    (∃ v : Fin 27, keyPair u w = .out (val2sym v.val)) ∨ keyPair u w = policyResult u.pol := by
  cases hd : sym2val u.cb with
  | none => exact .inr (keyPair_not_converts rfl (.inl hd))
  | some dv =>
    cases hk : sym2val w.data with
    | none => exact .inr (keyPair_not_converts rfl (.inr hk))
    | some kv => exact .inl ⟨_, keyPair_converts hd hk⟩

theorem pol_illegal_of_keyPair (h : keyPair u w = .illegal) : u.pol = .illegal := by
  rcases keyPair_cases u w with ⟨v, hv⟩ | hv <;> rw [h] at hv
  · cases hv
  · cases hp : u.pol with
    | illegal => rfl
    | skip | mark | abort => rw [hp] at hv; cases hv

/-- A byte that a pair answers is one SE may write (R228.6). -/
theorem seMayWrite_of_keyPair {b : Byte} (h : keyPair u w = .out b) :
    seMayWrite u (byteWord false b) = true := by
  rcases keyPair_cases u w with ⟨v, hv⟩ | hv <;> rw [h] at hv
  · cases hv
    simp [seMayWrite, byteWord, sym2val_val2sym]
  · cases hp : u.pol <;> rw [hp] at hv <;> cases hv
    simp [seMayWrite, byteWord, hp]

theorem seMayWrite_echo : seMayWrite u (byteWord false u.sent) = true := by
  simp [seMayWrite, byteWord]

end Answer

/-! ### SE's step -/

/-- What SE, `u` once the word `w` is off its channel, becomes with that word (R200 to R203, R180 to R182, R222 to
R226). -/
inductive SE.Takes (u : SE) (w : NetWord) : SE → Prop
  | accepts (hst : u.st = .awaitHs) (hkind : w.kind = .byte) (hdata : w.data = u.sent) :
      Takes u w ({ u.emit (byteWord false u.sent) with st := .active }.event .hsAccept 0x0)
  | rejects {x : Cause} (hx : x.IsFailure) (hst : u.st = .awaitHs)
      (hword : ¬(w.kind = .byte ∧ w.data = u.sent)) :
      Takes u w ((u.event .hsReject x.bits).close x)
  | carries (hst : u.st = .active) (hcv : u.cv = false) (hkind : w.kind = .byte)
      (hdata : w.data ≠ u.sent) : Takes u w { u with cb := w.data, cv := true }
  | terminates (hst : u.st = .active) (hcv : u.cv = false) (hkind : w.kind = .byte)
      (hdata : w.data = u.sent) :
      Takes u w ({ u.emit (byteWord false u.sent) with ts := true }.close .term)
  | answers (hst : u.st = .active) (hcv : u.cv = true) (hkind : w.kind = .byte) :
      Takes u w (keyStep u w)
  | ends {x : Cause} (hx : x.IsFailure) (hst : u.st = .active) (hkind : w.kind ≠ .byte) :
      Takes u w (u.close x)
  | discards (hst : u.st = .closed) : Takes u w u

/-- A step of SE on the word `w` at the head of `SE.rx`: a hold, or the word is taken and what is written fits. -/
def SeStep (s : State) (w : NetWord) (rest : List NetWord) (t : State) : Prop :=
  t = s ∨ ∃ v : SE, SE.Takes { s.se with rx := rest } w v ∧ v.tx.length ≤ s.params.obuf ∧
    t = { s with se := v }

section Step
variable {s t : State} {w : NetWord} {rest : List NetWord}

/-- A row whose operation writes the words it asks room for. -/
theorem seTake_seStep {need : SE → NetWord → Nat} {act : SE → NetWord → SE}
    (hw : s.se.rx = w :: rest) (h : seTake need act s = .next t)
    (htakes : SE.Takes { s.se with rx := rest } w (act { s.se with rx := rest } w))
    (hwrites : (act { s.se with rx := rest } w).tx.length = s.se.tx.length + need s.se w) :
    SeStep s w rest t := by
  rcases seTake_cases h with rfl | ⟨w', rest', hw', hroom, rfl⟩
  · exact .inl rfl
  · cases hw.symm.trans hw'
    exact .inr ⟨_, htakes, hwrites ▸ hroom, rfl⟩

/-- SE's rows in AWAIT_HS (R200 to R203, R225). -/
theorem exec_seStep_awaitHs (hst : s.se.st = .awaitHs) (hw : s.se.rx = w :: rest)
    (h : exec (seOperation .awaitHs s.se.cv w.kind (w.data == s.se.sent)) s = .next t) :
    SeStep s w rest t := by
  cases hkind : w.kind with
  | byte =>
    by_cases hdata : w.data = s.se.sent
    · simp only [hkind, hdata, seOperation, beq_self_eq_true, if_true, exec, execSeHsOk] at h
      exact seTake_seStep hw h (.accepts hst hkind hdata) (by simp)
    · simp only [hkind, seOperation, beq_iff_eq, hdata, if_false, exec, execSeHsBad] at h
      exact seTake_seStep hw h (.rejects (by decide) hst (by simp [hdata])) (by simp)
  | eof | ioerr =>
    simp only [hkind, seOperation, exec, execSeHsEof, execSeHsErr] at h
    exact seTake_seStep hw h (.rejects (by decide) hst (by simp [hkind])) (by simp)
  | close =>
    simp only [hkind, seOperation, exec, execSeIllegal] at h
    refine seTake_seStep hw h ?_ (by simp [hst])
    rw [if_pos hst]
    exact .rejects (by decide) hst (by simp [hkind])

/-- SE's rows in ACTIVE (R180 to R182, R222, R224, R225). -/
theorem exec_seStep_active (hst : s.se.st = .active) (hw : s.se.rx = w :: rest)
    (h : exec (seOperation .active s.se.cv w.kind (w.data == s.se.sent)) s = .next t) :
    SeStep s w rest t := by
  cases hkind : w.kind with
  | byte =>
    cases hcv : s.se.cv with
    | true =>
      simp only [hkind, hcv, seOperation, if_true, exec, execSeKey] at h
      refine seTake_seStep hw h (.answers hst hcv hkind) ?_
      rw [keyStep_tx, List.length_append, PairResult.length_words]
      rfl
    | false =>
      by_cases hdata : w.data = s.se.sent
      · simp only [hkind, hcv, hdata, seOperation, beq_self_eq_true, if_true, exec, execSeTerm] at h
        exact seTake_seStep hw h (.terminates hst hcv hkind hdata) (by simp)
      · simp only [hkind, hcv, seOperation, beq_iff_eq, hdata, if_false, exec, execSeData] at h
        exact seTake_seStep hw h (.carries hst hcv hkind hdata) rfl
  | eof | ioerr =>
    simp only [hkind, seOperation, exec, execSeEof, execSeIoerr] at h
    exact seTake_seStep hw h (.ends (by decide) hst (by simp [hkind])) (by simp)
  | close =>
    simp only [hkind, seOperation, exec, execSeIllegal] at h
    have hne : s.se.st ≠ .awaitHs := by simp [hst]
    refine seTake_seStep hw h ?_ (by simp [hst])
    rw [if_neg hne]
    exact .ends (by decide) hst (by simp [hkind])

/-- Everything SE's move can do with a word, state by state of R130. -/
theorem doMove_se_seStep (hw : s.se.rx = w :: rest) (h : doMove .se s = .next t) :
    SeStep s w rest t := by
  rw [doMove_se hw, decodeSe_vector] at h
  cases hst : s.se.st with
  | awaitHs => rw [hst] at h; exact exec_seStep_awaitHs hst hw h
  | active => rw [hst] at h; exact exec_seStep_active hst hw h
  | closed =>
    simp only [hst, seOperation, exec, execSeDiscard] at h
    exact seTake_seStep hw h (.discards hst) rfl
  | reserved =>
    rw [hst] at h
    cases h

end Step

/-! ### SE's transitions (R227) -/

/-- The words that leave SE in ACTIVE: a data byte, and a key byte whose pair does not close SE. -/
def SE.StaysActive (u : SE) (w : NetWord) : Prop :=
  w.kind = .byte ∧
    (if u.cv then keyPair u w ≠ .abort ∧ keyPair u w ≠ .illegal else w.data ≠ u.sent)

section Transitions
variable {u v : SE} {w : NetWord} (h : SE.Takes u w v)
include h

theorem SE.Takes.st_of_awaitHs (hst : u.st = .awaitHs) :
    v.st = if w.kind = .byte ∧ w.data = u.sent then .active else .closed := by
  cases h with
  | accepts _ hkind hdata => simp [hkind, hdata]
  | rejects _ _ hword => simp [hword]
  | carries hst' | terminates hst' | answers hst' | ends _ hst' | discards hst' =>
    cases hst.symm.trans hst'

theorem SE.Takes.st_active_iff (hst : u.st = .active) : v.st = .active ↔ u.StaysActive w := by
  cases h with
  | carries _ hcv hkind hdata => simp [SE.StaysActive, hst, hcv, hkind, hdata]
  | terminates _ hcv hkind hdata => simp [SE.StaysActive, hcv, hdata]
  | answers _ hcv hkind => simp [SE.StaysActive, keyStep_st, hst, hcv, hkind]
  | ends _ _ hkind => simp [SE.StaysActive, hkind]
  | accepts hst' | rejects _ hst' | discards hst' => cases hst.symm.trans hst'

theorem SE.Takes.active_or_closed (hst : u.st = .active) : v.st = .active ∨ v.st = .closed := by
  cases h with
  | carries => exact .inl hst
  | terminates | ends => exact .inr (SE.close_st _ _)
  | answers =>
    rw [keyStep_st]
    split
    · exact .inr rfl
    · exact .inl hst
  | accepts hst' | rejects _ hst' | discards hst' => cases hst.symm.trans hst'

theorem SE.Takes.eq_of_closed (hst : u.st = .closed) : v = u := by
  cases h with
  | discards => rfl
  | accepts hst' | rejects _ hst' | carries hst' | terminates hst' | answers hst' | ends _ hst' =>
    cases hst.symm.trans hst'

end Transitions

/-- Settles O39, by the state before the step. -/
theorem serverTransitions : Obligations.ServerTransitions := by
  intro s t w rest hw h hne
  rcases doMove_se_seStep hw h with rfl | ⟨v, htakes, -, rfl⟩
  · exact absurd rfl hne
  · exact ⟨fun hst hkind hdata => (htakes.st_of_awaitHs hst).trans (if_pos ⟨hkind, hdata⟩),
      fun hst hword => (htakes.st_of_awaitHs hst).trans (if_neg hword),
      fun hst => htakes.st_active_iff hst, fun hst => htakes.active_or_closed hst,
      fun hst => (congrArg SE.st (htakes.eq_of_closed hst)).trans hst⟩

/-! ### What SE writes (R228.5, R228.6) -/

/-- `ws` are words that a step of SE from `u` to `v` may add to `SE.tx`. -/
structure SE.MayAdd (u v : SE) (ws : List NetWord) : Prop where
  length : ws.length ≤ 2
  words : ∀ w ∈ ws, (w.kind = .byte ∧ seMayWrite u w = true) ∨ w = closeWord
  last : ∀ w ∈ ws.dropLast, w.kind = .byte
  close : closeWord ∈ ws ↔ u.st ≠ .closed ∧ v.st = .closed

theorem closeWord_ne_byteWord (last : Bool) (b : Byte) : closeWord ≠ byteWord last b := nofun

section Writes
variable {u v : SE}

/-- A step that writes nothing and does not close. -/
theorem SE.MayAdd.nil (h : u.st = .closed ∨ v.st ≠ .closed) : u.MayAdd v [] :=
  ⟨by simp, by simp, by simp, by simpa [or_iff_not_imp_left] using h⟩

/-- A step that writes one byte and does not close. -/
theorem SE.MayAdd.byte {b : Byte} (hmay : seMayWrite u (byteWord false b) = true)
    (h : v.st ≠ .closed) : u.MayAdd v [byteWord false b] :=
  ⟨by simp, by simpa using .inl ⟨rfl, hmay⟩, by simp, by simp [closeWord_ne_byteWord, h]⟩

/-- A step that closes. -/
theorem SE.MayAdd.close_only (hu : u.st ≠ .closed) (hv : v.st = .closed) : u.MayAdd v [closeWord] :=
  ⟨by simp, by simp, by simp, by simp [hu, hv]⟩

/-- A step that closes after a byte. -/
theorem SE.MayAdd.byte_close {b : Byte} (hmay : seMayWrite u (byteWord false b) = true)
    (hu : u.st ≠ .closed) (hv : v.st = .closed) : u.MayAdd v [byteWord false b, closeWord] :=
  ⟨by simp, by simpa using .inl ⟨rfl, hmay⟩, by simp [byteWord], by simp [hu, hv]⟩

theorem keyStep_mayAdd {w : NetWord} (hst : u.st = .active) :
    u.MayAdd (keyStep u w) (keyPair u w).words := by
  have hv := keyStep_st u w
  cases ha : keyPair u w with
  | out b => exact .byte (seMayWrite_of_keyPair u w ha) (by simp [hv, ha, hst])
  | nothing => exact .nil (.inr (by simp [hv, ha, hst]))
  | abort | illegal => exact .close_only (by simp [hst]) (by simp [hv, ha])

theorem SE.Takes.mayAdd {w : NetWord} (h : SE.Takes u w v) :
    ∃ ws, v.tx = u.tx ++ ws ∧ u.MayAdd v ws := by
  cases h with
  | accepts hst => exact ⟨_, rfl, .byte (seMayWrite_echo u) nofun⟩
  | rejects _ hst => exact ⟨_, SE.close_tx _ _, .close_only (by simp [hst]) (SE.close_st _ _)⟩
  | carries hst => exact ⟨[], (List.append_nil _).symm, .nil (.inr (by simp [hst]))⟩
  | terminates hst =>
    exact ⟨[byteWord false u.sent, closeWord], by simp,
      .byte_close (seMayWrite_echo u) (by simp [hst]) (SE.close_st _ _)⟩
  | answers hst => exact ⟨_, keyStep_tx u w, keyStep_mayAdd hst⟩
  | ends _ hst => exact ⟨_, SE.close_tx _ _, .close_only (by simp [hst]) (SE.close_st _ _)⟩
  | discards hst => exact ⟨[], (List.append_nil _).symm, .nil (.inl hst)⟩

end Writes

/-- Settles O42: a hold writes nothing, and a step what its row writes. -/
theorem serverWrites : Obligations.ServerWrites := by
  intro s t h
  have hold : s.se.MayAdd s.se [] := .nil (Decidable.em _)
  cases hw : s.se.rx with
  | nil =>
    cases (doMove_se_empty hw).symm.trans h
    exact ⟨[], (List.append_nil _).symm, hold.length, hold.words, hold.last, hold.close⟩
  | cons w rest =>
    rcases doMove_se_seStep hw h with rfl | ⟨v, htakes, -, rfl⟩
    · exact ⟨[], (List.append_nil _).symm, hold.length, hold.words, hold.last, hold.close⟩
    · obtain ⟨ws, htx, hadd⟩ := htakes.mayAdd
      exact ⟨ws, htx, hadd.length, hadd.words, hadd.last, hadd.close⟩

end Sys2Proof.Machine
end

section
/-! SUPPORT. SE's invariant (R228): one rule for each operation on SE, and from these every step of SE and its
reset. -/

namespace Sys2Proof.Machine

section Rules
variable {p : Params} {u : SE}

/-- An SE that is not CLOSED has closed for no reason, so its configuration is legal, and it has written bytes
only. -/
theorem SE.Inv.open_fields (h : u.Inv p) (hopen : u.st ≠ .closed) :
    u.ts = false ∧ u.cause = .none ∧ u.cfgOk = true ∧ ∀ w ∈ u.tx, w.kind = .byte := by
  have hcause : u.cause = .none := by
    by_contra hne
    exact hopen (h.caused.mp hne)
  refine ⟨Bool.eq_false_iff.mpr fun hts => hopen (h.terminated.mp hts).1, hcause,
    Bool.eq_true_of_not_eq_false fun hcfg => ?_, fun w hw => ?_⟩
  · cases hcause.symm.trans (h.config_closed.mp hcfg)
  · by_contra hne
    have hclose : w = closeWord := by simpa [emittedWord, hne] using h.tx_words w hw
    exact hopen (h.tx_close_closed w hw (hclose ▸ rfl))

theorem SE.Inv.event (h : u.Inv p) (k : EvCode) (a : BitVec 4) : (u.event k a).Inv p := { h with }

theorem SE.Inv.set_rx (h : u.Inv p) (rx : List NetWord) : ({ u with rx := rx } : SE).Inv p := { h with }

theorem SE.Inv.set_ev (h : u.Inv p) (ev : List Event) : ({ u with ev := ev } : SE).Inv p := { h with }

theorem SE.Inv.clearCarry (h : u.Inv p) : u.clearCarry.Inv p :=
  { h with carry_active := nofun, no_carry_zero := fun _ => rfl }

/-- Words taken from `SE.tx` leave the others as they were. -/
theorem SE.Inv.set_tx_tail (h : u.Inv p) : ({ u with tx := u.tx.tail } : SE).Inv p :=
  { h with
    tx_fits := (List.tail_sublist _).length_le.trans h.tx_fits
    tx_words := fun w hw => h.tx_words w (List.mem_of_mem_tail hw)
    tx_bytes := fun w hw => h.tx_bytes w (List.mem_of_mem_tail hw)
    tx_close_last := fun w hw => h.tx_close_last w (List.mem_of_mem_tail (by simpa [List.tail_dropLast] using hw))
    tx_close_closed := fun w hw => h.tx_close_closed w (List.mem_of_mem_tail hw) }

/-- A data byte is carried in ACTIVE alone. -/
theorem SE.Inv.carry (h : u.Inv p) (hst : u.st = .active) (b : Byte) :
    ({ u with cb := b, cv := true } : SE).Inv p :=
  { h with carry_active := fun _ => hst, no_carry_zero := nofun }

theorem SE.Inv.activate (h : u.Inv p) (hst : u.st = .awaitHs) :
    ({ u with st := .active } : SE).Inv p := by
  have hopen : u.st ≠ .closed := by simp [hst]
  obtain ⟨hts, hcause, -, hbytes⟩ := h.open_fields hopen
  exact { h with
    carry_active := fun _ => rfl
    terminated := by simp [hts]
    caused := by simp [hcause]
    reachable_state := nofun
    tx_close_closed := fun w hw hclose => by cases (hbytes w hw).symm.trans hclose }

/-- A byte SE may write, before its CLOSE. -/
theorem SE.Inv.emit_byte (h : u.Inv p) (hopen : u.st ≠ .closed) {b : Byte}
    (hmay : seMayWrite u (byteWord false b) = true) (hroom : u.tx.length + 1 ≤ p.obuf) :
    (u.emit (byteWord false b)).Inv p := by
  obtain ⟨-, -, -, hbytes⟩ := h.open_fields hopen
  have hall : ∀ w ∈ u.tx ++ [byteWord false b], w.kind = .byte :=
    List.forall_mem_append.mpr ⟨hbytes, by simp [byteWord]⟩
  exact { h with
    tx_fits := by simpa using hroom
    tx_words := fun w hw => by simp [emittedWord, hall w hw]
    tx_bytes := List.forall_mem_append.mpr ⟨h.tx_bytes, List.forall_mem_singleton.mpr hmay⟩
    tx_close_last := by simpa using hbytes
    tx_close_closed := fun w hw hclose => by cases (hall w hw).symm.trans hclose }

/-- `Close` with a cause of a running SE. -/
theorem SE.Inv.close (h : u.Inv p) (hopen : u.st ≠ .closed) {x : Cause} (hx : x = .term ∨ x.IsFailure)
    (hroom : u.tx.length + 1 ≤ p.obuf) : (u.close x).Inv p := by
  obtain ⟨hts, -, hcfg, hbytes⟩ := h.open_fields hopen
  have hcause : x ≠ .none ∧ x ≠ .cfgIllegal := by
    rcases hx with rfl | ⟨hnone, -, hcfg⟩
    · exact ⟨nofun, nofun⟩
    · exact ⟨hnone, hcfg⟩
  constructor
  case carry_active => simp
  case no_carry_zero => simp
  case terminated => simp [hts]
  case caused => simp [hcause]
  case reachable_state => simp
  case config => simpa using h.config
  case config_closed => simp [hcfg, hcause]
  case tx_fits => simpa using hroom
  case tx_words =>
    rw [SE.close_tx]
    exact List.forall_mem_append.mpr ⟨h.tx_words, by simp [emittedWord]⟩
  case tx_bytes =>
    rw [SE.close_tx]
    exact List.forall_mem_append.mpr ⟨by simpa [seMayWrite] using h.tx_bytes, by simp [seMayWrite, closeWord]⟩
  case tx_close_last => simpa using hbytes
  case tx_close_closed => simp

end Rules

/-! ### SE's step and its reset -/

section Steps
variable {p : Params} {u v : SE}

/-- `TS` set before the close with TERM is what that close sets (R181, R287). -/
theorem SE.close_term_of_ts (u : SE) : ({ u with ts := true } : SE).close .term = u.close .term := by
  simp [SE.close_eq_closedBy, SE.closedBy]

/-- What SE does with an answer keeps the invariant, where the byte answered is one it may write and the policy
is legal. -/
theorem SE.Inv.answer (h : u.Inv p) (hopen : u.st ≠ .closed) {a : PairResult}
    (hmay : ∀ b, a = .out b → seMayWrite u (byteWord false b) = true) (hlegal : a ≠ .illegal)
    (hroom : (u.answer a).tx.length ≤ p.obuf) : (u.answer a).Inv p := by
  rw [SE.answer_tx, List.length_append] at hroom
  cases a with
  | out b => exact h.emit_byte hopen (hmay b rfl) hroom
  | nothing => exact h
  | abort =>
    rw [SE.answer, ← SE.close_eq_closedBy]
    exact h.close hopen (.inr (by decide)) hroom
  | illegal => exact absurd rfl hlegal

theorem SE.Inv.keyStep {w : NetWord} (h : u.Inv p) (hst : u.st = .active)
    (hroom : (keyStep u w).tx.length ≤ p.obuf) : (keyStep u w).Inv p := by
  have hopen : u.st ≠ .closed := by simp [hst]
  have hlegal : keyPair u w ≠ .illegal := fun hill =>
    hopen (h.closed_of_pol_illegal (pol_illegal_of_keyPair u w hill)).2
  have hmay := fun b => seMayWrite_of_keyPair u w (b := b)
  rw [keyStep_eq_answer] at hroom ⊢
  by_cases hconv : pairConverts u.cb w.data = true
  · rw [if_pos hconv] at hroom ⊢
    exact h.clearCarry.answer hopen hmay hlegal hroom
  · rw [if_neg hconv] at hroom ⊢
    exact (h.clearCarry.event _ _).answer hopen hmay hlegal hroom

/-- A step of SE keeps its invariant, when what it writes fits. -/
theorem SE.Takes.inv {w : NetWord} (h : SE.Takes u w v) (hu : u.Inv p) (hroom : v.tx.length ≤ p.obuf) :
    v.Inv p := by
  cases h with
  | accepts hst =>
    exact ((hu.activate hst).emit_byte nofun (seMayWrite_echo _) (by simpa using hroom)).event _ _
  | rejects hx hst =>
    exact (hu.event _ _).close (by simp [hst]) (.inr hx) (by simpa using hroom)
  | carries hst => exact hu.carry hst _
  | terminates hst =>
    have hopen : u.st ≠ .closed := by simp [hst]
    have hlen : u.tx.length + 2 ≤ p.obuf := by simpa using hroom
    rw [SE.close_term_of_ts]
    exact (hu.emit_byte hopen (seMayWrite_echo u) (by omega)).close hopen (.inl rfl)
      (by simp; omega)
  | answers hst => exact hu.keyStep hst hroom
  | ends hx hst => exact hu.close (by simp [hst]) (.inr hx) (by simpa using hroom)
  | discards => exact hu

/-- SE's reset step, from any ports (R58, R221). -/
theorem SE.resetStep_inv (hp : p.Legal) (ports : SeCfgPorts) : (SE.resetStep ports).Inv p := by
  obtain ⟨-, -, -, -, hobuf, -⟩ := hp
  cases hlegal : seCfgLegal ports.sent ports.pol with
  | true => rw [SE.resetStep_legal _ hlegal]; constructor <;> simp [hlegal]
  | false =>
    rw [SE.resetStep_illegal _ hlegal]
    constructor <;> simp [hlegal, emittedWord, seMayWrite, closeWord]
    omega

end Steps

end Sys2Proof.Machine
end

section
/-! SUPPORT. Everything CF can do with a net word, with a command and by itself, case by case (R205 to R208, R240 to
R252). -/

namespace Sys2Proof.Machine

/-- CF after the sentinel has returned (R248). -/
def CF.completed (c : CF) : CF :=
  { (c.emitRes .done).emitNet closeWord with cst := .done, cause := .term }.event .closed Cause.term.bits

/-- What CF, `c` once the net word `w` is off its channel, becomes with that word (R205 to R208, R247 to R252). -/
inductive CF.TakesNet (c : CF) (w : NetWord) : CF → Prop
  | discards (hcst : c.cst = .idle ∨ c.cst = .done ∨ c.cst = .fail) : TakesNet c w c
  | accepts (hcst : c.cst = .hsWait) (hkind : w.kind = .byte) (hdata : w.data = c.sent) :
      TakesNet c w ({ c with cst := .stream }.event .hsAccept 0x0)
  | rejects {x : Cause} (hx : x.IsFailure) (hcst : c.cst = .hsWait)
      (hword : ¬(w.kind = .byte ∧ w.data = c.sent)) :
      TakesNet c w ((c.event .hsReject x.bits).fails x)
  | receives (hcst : c.cst = .stream) (hph : c.ph = true) (hkind : w.kind = .byte)
      (hdata : w.data ≠ c.sent) : TakesNet c w (recvStep c w)
  | completes (hcst : c.cst = .stream) (hph : c.ph = true) (hkind : w.kind = .byte)
      (hdata : w.data = c.sent) : TakesNet c w c.completed
  | fails {x : Cause} (hx : x.IsFailure) (hcst : c.cst = .stream) (hph : c.ph = true)
      (hkind : w.kind ≠ .byte) : TakesNet c w (c.fails x)

/-- What CF, `c` once the command `w` is off its channel, becomes with that command (R240 to R242). -/
inductive CF.TakesCommand (p : Params) (c : CF) (w : CmdWord) : CF → Prop
  | starts (hcst : c.cst = .idle) (hop : w.op = opStart) (hkey : w.n ≤ w.m) :
      TakesCommand p c w (startStep p c w)
  | fails {x : Cause} (hx : x.IsFailure) (hcst : c.cst = .idle)
      (hword : ¬(w.op = opStart ∧ w.n ≤ w.m)) : TakesCommand p c w (c.fails x)

/-- What CF's internal step makes of CF (R245, R246). -/
inductive CF.Sends (p : Params) (c : CF) : CF → Prop
  | byte (b : Byte) (hcst : c.cst = .stream) (hph : c.ph = false) (hmore : c.txp < 2 * c.n) :
      Sends p c (sendStep p b c)
  | sentinel (hcst : c.cst = .stream) (hph : c.ph = false) (hend : ¬c.txp < 2 * c.n) :
      Sends p c { c.emitNet (byteWord true c.sent) with allSent := true, ph := true }

/-- What a unit's step writes fits into CF's output channels (R89, R253). -/
def CF.Fits (p : Params) (c : CF) : Prop := c.ntx.length ≤ p.obuf ∧ c.res.length ≤ p.obuf

/-- CF has written the words it asked room for. -/
def CF.Writes (c d : CF) (net res : Nat) : Prop :=
  d.ntx.length = c.ntx.length + net ∧ d.res.length = c.res.length + res

theorem CF.Writes.fits {p : Params} {c d : CF} {net res : Nat} (h : c.Writes d net res)
    (hroom : c.hasRoom p net res = true) : d.Fits p := by
  obtain ⟨hntx, hres⟩ := h
  obtain ⟨hroomNet, hroomRes⟩ := (CF.hasRoom_iff ..).mp hroom
  exact ⟨hntx ▸ hroomNet, hres ▸ hroomRes⟩

theorem CF.fails_writes (c : CF) (x : Cause) : c.Writes (c.fails x) (failNetWords c) 1 := by
  constructor
  · by_cases h : c.cst = .hsWait ∨ c.cst = .stream <;> simp [failNetWords, h]
  · simp

/-- A step of CF on a net word: a hold, or the word is taken and what is written fits. -/
def CfNetStep (s : State) (w : NetWord) (rest : List NetWord) (t : State) : Prop :=
  t = s ∨ ∃ d : CF, CF.TakesNet { s.cf with nrx := rest } w d ∧ d.Fits s.params ∧ t = { s with cf := d }

/-- A step of CF on a command, as one on a net word. -/
def CfCommandStep (s : State) (w : CmdWord) (rest : List CmdWord) (t : State) : Prop :=
  t = s ∨ ∃ d : CF, CF.TakesCommand s.params { s.cf with cmd := rest } w d ∧ d.Fits s.params ∧
    t = { s with cf := d }

section Step
variable {s t : State}

section Net
variable {w : NetWord} {rest : List NetWord}

theorem cfTakeNet_cfNetStep {net res : CF → Nat} {act : CF → NetWord → CF}
    (hw : s.cf.nrx = w :: rest) (h : cfTakeNet net res act s = .next t)
    (htakes : CF.TakesNet { s.cf with nrx := rest } w (act { s.cf with nrx := rest } w))
    (hwrites : CF.Writes s.cf (act { s.cf with nrx := rest } w) (net s.cf) (res s.cf)) :
    CfNetStep s w rest t := by
  rcases cfTakeNet_cases h with rfl | ⟨w', rest', hw', hroom, rfl⟩
  · exact .inl rfl
  · cases hw.symm.trans hw'
    exact .inr ⟨_, htakes, hwrites.fits hroom, rfl⟩

/-- CF's rows in HS_WAIT (R205 to R208, R251). -/
theorem exec_cfNetStep_hsWait {ph a : Bool} {i : Instr} (hcst : s.cf.cst = .hsWait)
    (hw : s.cf.nrx = w :: rest)
    (hi : cfNetOperation .hsWait ph a w.kind (w.data == s.cf.sent) = .ok i)
    (h : exec i s = .next t) : CfNetStep s w rest t := by
  cases hkind : w.kind with
  | byte =>
    by_cases hdata : w.data = s.cf.sent
    · simp only [hkind, hdata, cfNetOperation, beq_self_eq_true, if_true] at hi
      cases hi
      simp only [exec, execCfHsOk] at h
      exact cfTakeNet_cfNetStep hw h (.accepts hcst hkind hdata) ⟨rfl, rfl⟩
    · simp only [hkind, cfNetOperation, beq_iff_eq, hdata, if_false] at hi
      cases hi
      simp only [exec, execCfHsBad] at h
      exact cfTakeNet_cfNetStep hw h (.rejects (by decide) hcst (by simp [hdata])) (CF.fails_writes _ _)
  | eof | ioerr =>
    simp only [hkind, cfNetOperation] at hi
    cases hi
    simp only [exec, execCfHsEof, execCfHsErr] at h
    exact cfTakeNet_cfNetStep hw h (.rejects (by decide) hcst (by simp [hkind])) (CF.fails_writes _ _)
  | close =>
    simp only [hkind, cfNetOperation] at hi
    cases hi
    simp only [exec, execCfNetIllegal1] at h
    have hstep := netIllegalStep_hsWait (c := { s.cf with nrx := rest }) hcst w
    refine cfTakeNet_cfNetStep hw h ?_ ?_ <;> rw [hstep]
    · exact .rejects (by decide) hcst (by simp [hkind])
    · exact CF.fails_writes _ _

/-- After the handshake a KIND-11 word only fails (R251). -/
theorem netIllegalStep_of_ne_hsWait {c : CF} (hcst : c.cst ≠ .hsWait) (w : NetWord) :
    netIllegalStep c w = c.fails .illegalEvt := by
  rw [netIllegalStep, if_neg hcst]

/-- CF's rows in STREAM, where it waits in its read (R247 to R251). -/
theorem exec_cfNetStep_stream {ph a : Bool} {i : Instr} (hcst : s.cf.cst = .stream)
    (hph : s.cf.ph = ph) (hw : s.cf.nrx = w :: rest)
    (hi : cfNetOperation .stream ph a w.kind (w.data == s.cf.sent) = .ok i)
    (h : exec i s = .next t) : CfNetStep s w rest t := by
  cases ph with
  | false => cases hi
  | true =>
    cases hkind : w.kind with
    | byte =>
      by_cases hdata : w.data = s.cf.sent
      · simp only [hkind, hdata, cfNetOperation, beq_self_eq_true, if_true] at hi
        cases hi
        simp only [exec, execCfRecvTerm] at h
        exact cfTakeNet_cfNetStep hw h (.completes hcst hph hkind hdata) (by simp [CF.Writes])
      · simp only [hkind, cfNetOperation, beq_iff_eq, hdata, if_false, if_true] at hi
        cases hi
        simp only [exec, execCfRecvByte] at h
        exact cfTakeNet_cfNetStep hw h (.receives hcst hph hkind hdata) (by simp [CF.Writes, recvStep])
    | eof | ioerr =>
      simp only [hkind, cfNetOperation, if_true] at hi
      cases hi
      simp only [exec, execCfRecvEof, execCfRecvErr] at h
      exact cfTakeNet_cfNetStep hw h (.fails (by decide) hcst hph (by simp [hkind]))
        (CF.fails_writes _ _)
    | close =>
      simp only [hkind, cfNetOperation, if_true] at hi
      cases hi
      simp only [exec, execCfNetIllegal2] at h
      have hne : s.cf.cst ≠ .hsWait := by simp [hcst]
      have hstep := netIllegalStep_of_ne_hsWait (c := { s.cf with nrx := rest }) hne w
      refine cfTakeNet_cfNetStep hw h ?_ ?_ <;> rw [hstep]
      · exact .fails (by decide) hcst hph (by simp [hkind])
      · exact CF.fails_writes _ _

/-- Everything CF's net move can do with a word, state by state of R132. -/
theorem doMove_cfNet_cfNetStep (hw : s.cf.nrx = w :: rest) (h : doMove .cfNet s = .next t) :
    CfNetStep s w rest t := by
  rcases unitStep_cases h with rfl | ⟨v, i, hv, hi, he⟩
  · exact .inl rfl
  · obtain rfl : v = .cfDv (s.cf.netVector w) := by simpa [presented, hw] using hv.symm
    rw [decode, decodeCf_netVector] at hi
    cases hcst : s.cf.cst with
    | idle | done | fail =>
      rw [hcst] at hi
      cases hi
      simp only [exec, present, execCfDiscard1, execCfDiscard2, execCfDiscard3] at he
      exact cfTakeNet_cfNetStep hw he (.discards (by simp [hcst])) ⟨rfl, rfl⟩
    | hsWait => rw [hcst] at hi; exact exec_cfNetStep_hsWait hcst hw hi he
    | stream => rw [hcst] at hi; exact exec_cfNetStep_stream hcst rfl hw hi he
    | reserved5 | reserved6 | reserved7 => rw [hcst] at hi; cases hi

end Net

section Command
variable {w : CmdWord} {rest : List CmdWord}

theorem cfTakeCommand_cfCommandStep {net res : CF → Nat} {act : CF → CmdWord → CF}
    (hw : s.cf.cmd = w :: rest) (h : cfTakeCommand net res act s = .next t)
    (htakes : CF.TakesCommand s.params { s.cf with cmd := rest } w (act { s.cf with cmd := rest } w))
    (hwrites : CF.Writes s.cf (act { s.cf with cmd := rest } w) (net s.cf) (res s.cf)) :
    CfCommandStep s w rest t := by
  rcases cfTakeCommand_cases h with rfl | ⟨w', rest', hw', hroom, rfl⟩
  · exact .inl rfl
  · cases hw.symm.trans hw'
    exact .inr ⟨_, htakes, hwrites.fits hroom, rfl⟩

/-- Everything CF's command move can do with a word: only IDLE takes one (R240 to R242, R253). -/
theorem doMove_cfCommand_cfCommandStep (hw : s.cf.cmd = w :: rest)
    (h : doMove .cfCommand s = .next t) : CfCommandStep s w rest t := by
  rcases unitStep_cases h with rfl | ⟨v, i, hv, hi, he⟩
  · exact .inl rfl
  · obtain rfl : v = .cfDv (s.cf.commandVector w) := by simpa [presented, hw] using hv.symm
    rw [decode, decodeCf_commandVector] at hi
    cases hcst : s.cf.cst with
    | idle =>
      simp only [hcst, cfCommandOperation, decide_eq_true_eq] at hi
      split_ifs at hi with hop hkey <;> cases hi
      · simp only [exec, present, execCfStartOk] at he
        exact cfTakeCommand_cfCommandStep hw he (.starts hcst hop hkey) (by simp [CF.Writes, startStep])
      · simp only [exec, present, execCfStartKeylen] at he
        exact cfTakeCommand_cfCommandStep hw he (.fails (by decide) hcst fun hword => hkey hword.2)
          (CF.fails_writes _ _)
      all_goals
        simp only [exec, present, execCfCmdIllegal1, execCfCmdIllegal2, execCfCmdIllegal3] at he
        exact cfTakeCommand_cfCommandStep hw he (.fails (by decide) hcst fun hword => hop hword.1)
          (CF.fails_writes _ _)
    | hsWait | stream | done | fail | reserved5 | reserved6 | reserved7 => rw [hcst] at hi; cases hi

end Command

/-- Everything CF's internal move can do (R245, R246). -/
theorem doMove_cfInternal_cases (h : doMove .cfInternal s = .next t) :
    t = s ∨ ∃ d : CF, CF.Sends s.params s.cf d ∧ d.ntx.length ≤ s.params.obuf ∧ d.res = s.cf.res ∧
      t = { s with cf := d } := by
  simp only [doMove] at h
  rcases unitStep_cases h with rfl | ⟨v, i, hv, hi, he⟩
  · exact .inl rfl
  · obtain rfl := Option.some.inj hv
    rw [decode, decodeCf_internalVector] at hi
    cases hcst : s.cf.cst with
    | stream =>
      simp only [hcst, cfInternalOperation, decide_eq_true_eq] at hi
      split_ifs at hi with hph ha hmore <;> cases hi
      · simp only [exec, present, execCfSendByte] at he
        rcases cfSend_cases he with rfl | ⟨hroom, rfl⟩
        · exact .inl rfl
        · exact .inr ⟨_, .byte _ hcst (by simpa using hph) hmore,
            by simpa [sendStep] using ((CF.hasRoom_iff ..).mp hroom).1, rfl, rfl⟩
      · simp only [exec, present, execCfSendSent] at he
        rcases cfSend_cases he with rfl | ⟨hroom, rfl⟩
        · exact .inl rfl
        · exact .inr ⟨_, .sentinel hcst (by simpa using hph) hmore,
            by simpa using ((CF.hasRoom_iff ..).mp hroom).1, rfl, rfl⟩
    | idle | hsWait | done | fail | reserved5 | reserved6 | reserved7 => rw [hcst] at hi; cases hi

end Step

end Sys2Proof.Machine
end

section
/-! SUPPORT. CF's invariant (R258): one rule for each operation on CF, and from these every step of CF and its
reset. -/

namespace Sys2Proof.Machine

theorem CF.terminal_iff (c : CF) : c.terminal = true ↔ c.cst = .done ∨ c.cst = .fail := by
  simp [CF.terminal]

section Rules
variable {p : Params} {c : CF}

/-- A CF that is neither DONE nor FAIL has ended for no reason, so its configuration is legal, and it has written
bytes only. -/
theorem CF.Inv.open_fields (h : c.Inv p) (hopen : ¬c.terminal = true) :
    c.cause = .none ∧ c.cfgOk = true ∧ (∀ w ∈ c.ntx, w.kind = .byte) ∧
      ∀ w ∈ c.res, ∃ b, w = .byte b := by
  have hcause : c.cause = .none := by
    by_contra hne
    exact hopen (h.caused.mp hne)
  refine ⟨hcause, Bool.eq_true_of_not_eq_false fun hcfg => ?_, fun w hw => ?_,
    fun w hw => (h.res_end_terminal w hw).resolve_right hopen⟩
  · cases hcause.symm.trans (h.config_failed.mp hcfg)
  · by_contra hne
    have hclose : w = closeWord := by simpa [emittedWord, hne] using h.ntx_words w hw
    exact hopen (h.ntx_close_terminal w hw (hclose ▸ rfl))

/-! The channels that CF reads and the host drains. -/

theorem CF.Inv.event (h : c.Inv p) (k : EvCode) (a : BitVec 4) : (c.event k a).Inv p := { h with }

theorem CF.Inv.set_nrx (h : c.Inv p) (nrx : List NetWord) : ({ c with nrx := nrx } : CF).Inv p := { h with }

theorem CF.Inv.set_ev (h : c.Inv p) (ev : List Event) : ({ c with ev := ev } : CF).Inv p := { h with }

theorem CF.Inv.set_cmd (h : c.Inv p) {cmd : List CmdWord}
    (hcmd : ∀ w ∈ cmd, w.n < 2 ^ p.lenW ∧ w.m < 2 ^ p.lenW) : ({ c with cmd := cmd } : CF).Inv p :=
  { h with cmd_lengths := hcmd }

theorem CF.Inv.set_ntx_tail (h : c.Inv p) : ({ c with ntx := c.ntx.tail } : CF).Inv p :=
  { h with
    last_sent := fun hcst hph ha w hw => h.last_sent hcst hph ha w (by
      rw [List.getLast?_tail] at hw
      split at hw
      · cases hw
      · exact hw)
    ntx_fits := (List.tail_sublist _).length_le.trans h.ntx_fits
    ntx_words := fun w hw => h.ntx_words w (List.mem_of_mem_tail hw)
    ntx_close_last := fun w hw =>
      h.ntx_close_last w (List.mem_of_mem_tail (by simpa [List.tail_dropLast] using hw))
    ntx_close_terminal := fun w hw => h.ntx_close_terminal w (List.mem_of_mem_tail hw) }

theorem CF.Inv.set_res_tail (h : c.Inv p) : ({ c with res := c.res.tail } : CF).Inv p :=
  { h with
    res_fits := (List.tail_sublist _).length_le.trans h.res_fits
    res_end_last := fun w hw =>
      h.res_end_last w (List.mem_of_mem_tail (by simpa [List.tail_dropLast] using hw))
    res_end_terminal := fun w hw => h.res_end_terminal w (List.mem_of_mem_tail hw) }

/-! The ends of a session. -/

/-- `Fail` with a cause of a running CF (R288). -/
theorem CF.Inv.fails (h : c.Inv p) (hopen : ¬c.terminal = true) {x : Cause} (hx : x.IsFailure)
    (hfits : (c.fails x).Fits p) : (c.fails x).Inv p := by
  obtain ⟨-, hcfg, hbytes, hres⟩ := h.open_fields hopen
  obtain ⟨hnone, hterm, hill⟩ := hx
  obtain ⟨hntxFits, hresFits⟩ := hfits
  have hterminal : (c.fails x).terminal = true := (CF.terminal_iff _).mpr (.inr (CF.fails_cst _ _))
  constructor
  case txp_le => simpa using h.txp_le
  case cc_mod => simpa using h.cc_mod
  case cc_zero => simpa using h.cc_zero
  case all_sent => simpa using h.all_sent
  case last_sent => simp
  case unsent => simp
  case idle_lengths => simp
  case lengths => simpa using h.lengths
  case cmd_lengths => simpa using h.cmd_lengths
  case caused => simp [hterminal, hnone]
  case done_term => simp [hterm]
  case reachable_state => simp
  case config => simpa using h.config
  case config_failed => simp [hcfg, hill]
  case ntx_fits => exact hntxFits
  case res_fits => exact hresFits
  case ntx_words =>
    rw [CF.fails_ntx]
    refine List.forall_mem_append.mpr ⟨h.ntx_words, ?_⟩
    split <;> simp [emittedWord]
  case ntx_close_last =>
    rw [CF.fails_ntx]
    split
    · simpa using hbytes
    · simpa using h.ntx_close_last
  case ntx_close_terminal => exact fun _ _ _ => hterminal
  case res_end_last => simpa using hres
  case res_end_terminal => exact fun _ _ => .inr hterminal

/-- The session is complete (R248). -/
theorem CF.Inv.completed (h : c.Inv p) (hopen : ¬c.terminal = true) (hfits : c.completed.Fits p) :
    c.completed.Inv p := by
  obtain ⟨-, hcfg, hbytes, hres⟩ := h.open_fields hopen
  obtain ⟨hntxFits, hresFits⟩ := hfits
  exact { h with
    last_sent := nofun
    unsent := nofun
    idle_lengths := nofun
    caused := ⟨fun _ => rfl, fun _ => nofun⟩
    done_term := ⟨fun _ => rfl, fun _ => rfl⟩
    reachable_state := ⟨nofun, nofun, nofun⟩
    config_failed := by simp [CF.completed, hcfg]
    ntx_fits := hntxFits
    res_fits := hresFits
    ntx_words := List.forall_mem_append.mpr ⟨h.ntx_words, by simp [emittedWord]⟩
    ntx_close_last := by simpa [CF.completed] using hbytes
    ntx_close_terminal := fun _ _ _ => rfl
    res_end_last := by simpa [CF.completed] using hres
    res_end_terminal := fun _ _ => .inr rfl }

/-! The running session. -/

theorem CF.not_terminal {c : CF} (h : c.cst = .idle ∨ c.cst = .hsWait ∨ c.cst = .stream) :
    ¬c.terminal = true := by
  rcases h with h | h | h <;> simp [CF.terminal, h]

/-- The echo has matched: nothing has been sent of the stream yet (R205). -/
theorem CF.Inv.accept (h : c.Inv p) (hcst : c.cst = .hsWait) : ({ c with cst := .stream } : CF).Inv p := by
  obtain ⟨hcause, -, hbytes, hres⟩ := h.open_fields (CF.not_terminal (.inr (.inl hcst)))
  obtain ⟨-, hph, -⟩ := h.unsent (.inr hcst)
  exact { h with
    last_sent := fun _ hph' => by cases hph.symm.trans hph'
    unsent := nofun
    idle_lengths := nofun
    caused := by simp [hcause, CF.terminal]
    done_term := by simp [hcause]
    reachable_state := ⟨nofun, nofun, nofun⟩
    ntx_close_terminal := fun w hw hclose => by cases (hbytes w hw).symm.trans hclose
    res_end_terminal := fun w hw => .inl (hres w hw) }

/-- A START latches lengths that fit, and nothing has been sent yet (R240). -/
theorem CF.Inv.latch (h : c.Inv p) (hcst : c.cst = .idle) {n m : Nat} (hn : n < 2 ^ p.lenW)
    (hm : m < 2 ^ p.lenW) (hkey : n ≤ m) :
    ({ c with
      cst := .hsWait, n := n, m := m, txp := 0, cc := 0, ph := false, allSent := false } : CF).Inv p := by
  obtain ⟨hcause, -, hbytes, hres⟩ := h.open_fields (CF.not_terminal (.inl hcst))
  exact { h with
    txp_le := Nat.zero_le _
    cc_mod := fun _ => rfl
    cc_zero := fun _ => rfl
    all_sent := nofun
    last_sent := nofun
    unsent := fun _ => ⟨rfl, rfl, rfl⟩
    idle_lengths := nofun
    lengths := ⟨hn, hm, hkey⟩
    caused := by simp [hcause, CF.terminal]
    done_term := by simp [hcause]
    reachable_state := ⟨nofun, nofun, nofun⟩
    ntx_close_terminal := fun w hw hclose => by cases (hbytes w hw).symm.trans hclose
    res_end_terminal := fun w hw => .inl (hres w hw) }

/-- A BYTE that CF writes in HS_WAIT, or in STREAM while it is not in its read. -/
theorem CF.Inv.emit_byte (h : c.Inv p) (hopen : ¬c.terminal = true) (hph : c.ph = false) (last : Bool)
    (b : Byte) (hroom : c.ntx.length + 1 ≤ p.obuf) : (c.emitNet (byteWord last b)).Inv p := by
  obtain ⟨-, -, hbytes, -⟩ := h.open_fields hopen
  have hall : ∀ w ∈ c.ntx ++ [byteWord last b], w.kind = .byte :=
    List.forall_mem_append.mpr ⟨hbytes, by simp [byteWord]⟩
  exact { h with
    last_sent := fun _ hph' => by cases hph.symm.trans hph'
    ntx_fits := by simpa using hroom
    ntx_words := fun w hw => by simp [emittedWord, hall w hw]
    ntx_close_last := by simpa using hbytes
    ntx_close_terminal := fun w hw hclose => by cases (hall w hw).symm.trans hclose }

/-- A result byte (R247). -/
theorem CF.Inv.emit_res (h : c.Inv p) (hopen : ¬c.terminal = true) (b : Byte)
    (hroom : c.res.length + 1 ≤ p.obuf) : (c.emitRes (.byte b)).Inv p := by
  obtain ⟨-, -, -, hres⟩ := h.open_fields hopen
  exact { h with
    res_fits := by simpa using hroom
    res_end_last := by simpa using hres
    res_end_terminal := fun w hw => .inl
      (List.forall_mem_append.mpr ⟨hres, List.forall_mem_singleton.mpr ⟨b, rfl⟩⟩ w hw) }

/-- The counters and flags of STREAM, where they are as R258.1 to R258.5 say. -/
theorem CF.Inv.set_progress (h : c.Inv p) (hcst : c.cst = .stream) {txp : Nat} {cc : BitVec 16}
    {ph a : Bool} (hle : txp ≤ 2 * c.n) (hmod : txp < 2 * c.n → cc.toNat = txp % p.chunkMax)
    (hzero : txp = 2 * c.n → cc = 0) (hall : a = true → txp = 2 * c.n ∧ ph = true)
    (hlast : ph = true → a = false → ∀ w, c.ntx.getLast? = some w → w.last = true) :
    ({ c with txp := txp, cc := cc, ph := ph, allSent := a } : CF).Inv p :=
  { h with
    txp_le := hle
    cc_mod := hmod
    cc_zero := hzero
    all_sent := hall
    last_sent := fun _ => hlast
    unsent := fun hst => by rcases hst with hst | hst <;> cases hcst.symm.trans hst }

end Rules

/-! ### The stream byte's counters (R245) -/

section Counters
variable {p : Params} {c : CF}

theorem chunkEnds_iff : chunkEnds p c = true ↔ c.cc.toNat + 1 = p.chunkMax ∨ c.txp + 1 = 2 * c.n := by
  simp [chunkEnds]

/-- While stream bytes are left, the chunk counter is below `CHUNK_MAX`. -/
theorem CF.Inv.cc_lt (h : c.Inv p) (hp : p.Legal) (hmore : c.txp < 2 * c.n) :
    c.cc.toNat < p.chunkMax := by
  obtain ⟨hchunk, -⟩ := hp
  rw [h.cc_mod hmore]
  exact Nat.mod_lt _ hchunk

/-- The next chunk counter is again TXP modulo `CHUNK_MAX`, while stream bytes are left. -/
theorem CF.Inv.next_cc (h : c.Inv p) (hp : p.Legal) (hmore : c.txp + 1 < 2 * c.n) :
    (if chunkEnds p c then 0 else BitVec.ofNat 16 (c.cc.toNat + 1) : BitVec 16).toNat =
      (c.txp + 1) % p.chunkMax := by
  have hlt := h.cc_lt hp (by omega)
  obtain ⟨-, hmax, -⟩ := hp
  have hmod : (c.txp + 1) % p.chunkMax = (c.cc.toNat + 1) % p.chunkMax := by
    rw [h.cc_mod (by omega), Nat.mod_add_mod]
  rw [hmod]
  by_cases hend : chunkEnds p c = true
  · have hfull : c.cc.toNat + 1 = p.chunkMax :=
      (chunkEnds_iff.mp hend).resolve_right (by omega)
    rw [if_pos hend, hfull, Nat.mod_self]
    rfl
  · have hne : c.cc.toNat + 1 ≠ p.chunkMax := fun hfull => hend (chunkEnds_iff.mpr (.inl hfull))
    rw [if_neg hend, BitVec.toNat_ofNat, Nat.mod_eq_of_lt (by omega), Nat.mod_eq_of_lt (by omega)]

/-- TXP never overflows its `LEN_W + 1` bits (R43). -/
theorem CF.Inv.next_txp (h : c.Inv p) (hmore : c.txp < 2 * c.n) :
    (c.txp + 1) % 2 ^ (p.lenW + 1) = c.txp + 1 := by
  obtain ⟨hn, -⟩ := h.lengths
  exact Nat.mod_eq_of_lt (by rw [pow_succ]; omega)

theorem CF.Inv.not_allSent (h : c.Inv p) (hph : c.ph = false) : c.allSent = false :=
  Bool.eq_false_iff.mpr fun ha => by cases hph.symm.trans (h.all_sent ha).2

end Counters

/-! ### CF's steps and its reset -/

section Steps
variable {p : Params} {c d : CF}

theorem CF.Inv.sendStep (h : c.Inv p) (hp : p.Legal) (hcst : c.cst = .stream) (hph : c.ph = false)
    (hmore : c.txp < 2 * c.n) (b : Byte) (hroom : c.ntx.length + 1 ≤ p.obuf) :
    (sendStep p b c).Inv p := by
  have hopen := CF.not_terminal (.inr (.inr hcst))
  have htxp := h.next_txp hmore
  have ha := h.not_allSent hph
  refine (h.emit_byte hopen hph (chunkEnds p c) b hroom).set_progress hcst
    (htxp.symm ▸ hmore) (fun hleft => ?_) (fun hend => ?_) (fun ha' => ?_) (fun hlast _ w hw => ?_)
  · rw [htxp] at hleft ⊢
    exact h.next_cc hp hleft
  · exact if_pos (chunkEnds_iff.mpr (.inr (htxp.symm.trans hend)))
  · cases ha.symm.trans ha'
  · obtain rfl : byteWord (chunkEnds p c) b = w := by simpa using hw
    simpa [hph, byteWord] using hlast

/-- CF's internal step keeps its invariant, when what it writes fits. -/
theorem CF.Sends.inv (h : CF.Sends p c d) (hp : p.Legal) (hc : c.Inv p) (hroom : d.ntx.length ≤ p.obuf) :
    d.Inv p := by
  cases h with
  | byte b hcst hph hmore => exact hc.sendStep hp hcst hph hmore b (by simpa [sendStep] using hroom)
  | sentinel hcst hph hend =>
    have hopen := CF.not_terminal (.inr (.inr hcst))
    have htxp : c.txp = 2 * c.n := le_antisymm hc.txp_le (not_lt.mp hend)
    exact (hc.emit_byte hopen hph true c.sent (by simpa using hroom)).set_progress hcst hc.txp_le
      hc.cc_mod hc.cc_zero (fun _ => ⟨htxp, rfl⟩) nofun

theorem CF.Inv.recvStep (h : c.Inv p) (hcst : c.cst = .stream) (hph : c.ph = true) (w : NetWord)
    (hroom : c.res.length + 1 ≤ p.obuf) : (recvStep c w).Inv p := by
  have hopen := CF.not_terminal (.inr (.inr hcst))
  refine (h.emit_res hopen w.data hroom).set_progress hcst h.txp_le h.cc_mod h.cc_zero (fun ha => ?_)
    (fun _ ha => h.last_sent hcst hph ha)
  obtain ⟨htxp, -⟩ := h.all_sent ha
  exact ⟨htxp, by simpa [show c.allSent = true from ha] using hph⟩

/-- A step of CF on a net word keeps its invariant, when what it writes fits. -/
theorem CF.TakesNet.inv {w : NetWord} (h : CF.TakesNet c w d) (hc : c.Inv p) (hfits : d.Fits p) :
    d.Inv p := by
  cases h with
  | discards => exact hc
  | accepts hcst => exact (hc.accept hcst).event _ _
  | rejects hx hcst => exact (hc.event _ _).fails (CF.not_terminal (.inr (.inl hcst))) hx hfits
  | receives hcst hph =>
    obtain ⟨-, hres⟩ := hfits
    exact hc.recvStep hcst hph w (by simpa [recvStep] using hres)
  | completes hcst => exact hc.completed (CF.not_terminal (.inr (.inr hcst))) hfits
  | fails hx hcst => exact hc.fails (CF.not_terminal (.inr (.inr hcst))) hx hfits

/-- A step of CF on a command whose lengths fit keeps its invariant, when what it writes fits. -/
theorem CF.TakesCommand.inv {w : CmdWord} (h : CF.TakesCommand p c w d) (hc : c.Inv p)
    (hw : w.n < 2 ^ p.lenW ∧ w.m < 2 ^ p.lenW) (hfits : d.Fits p) : d.Inv p := by
  cases h with
  | starts hcst _ hkey =>
    obtain ⟨hn, hm⟩ := hw
    obtain ⟨hntx, -⟩ := hfits
    rw [startStep, Nat.mod_eq_of_lt hn, Nat.mod_eq_of_lt hm] at hntx ⊢
    exact (hc.latch hcst hn hm hkey).emit_byte (CF.not_terminal (.inr (.inl rfl))) rfl true c.sent
      (by simpa using hntx)
  | fails hx hcst => exact hc.fails (CF.not_terminal (.inl hcst)) hx hfits

/-- CF's reset step, from any port (R59, R254). -/
theorem CF.resetStep_inv (hp : p.Legal) (ports : CfCfgPorts) : (CF.resetStep ports).Inv p := by
  obtain ⟨-, -, -, -, hobuf, -⟩ := hp
  cases hlegal : cfCfgLegal ports.sent with
  | true => rw [CF.resetStep_legal _ hlegal]; constructor <;> simp [hlegal, CF.terminal]
  | false =>
    rw [CF.resetStep_illegal _ hlegal]
    constructor <;> simp [hlegal, CF.terminal]
    omega

end Steps

end Sys2Proof.Machine
end

section
/-! SUPPORT. The invariant of the machine: what each move leaves of it, part by part. Then the statements that every
step keeps it and that every reachable state meets it. -/

namespace Sys2Proof.Machine

/-! ### A direction of the transport -/

section Lanes
variable {s t : State} {lane : Lane}

theorem State.netBuf_congr (h : t.params = s.params) (lane : Lane) : t.netBuf lane = s.netBuf lane := by
  cases lane <;> simp [State.netBuf, h]

theorem State.readerRoom_congr (h : t.params = s.params) (lane : Lane) :
    t.readerRoom lane = s.readerRoom lane := by
  cases lane <;> simp [State.readerRoom, h]

/-- A move that neither holds more bytes, nor opens a longer read, nor puts a byte into the reader's channel. -/
theorem State.LaneInv.mono (h : s.LaneInv lane) (hparams : t.params = s.params) (hbench : t.bench = s.bench)
    (hbuf : (t.lane lane).buf.length ≤ (s.lane lane).buf.length)
    (hread : (t.lane lane).chunkLen ≤ (s.lane lane).chunkLen)
    (hchannel : (byteData (t.readerChannel lane)).length ≤ (byteData (s.readerChannel lane)).length) :
    t.LaneInv lane where
  held m hm := hbuf.trans (h.held m ((State.netBuf_congr hparams lane).symm.trans hm))
  channel hb m hm := hchannel.trans
    (h.channel (hbench.symm.trans hb) m ((State.readerRoom_congr hparams lane).symm.trans hm))
  read_short := by rw [hparams]; exact lt_of_le_of_lt hread h.read_short

end Lanes

/-! ### The parts a move writes -/

section Parts
variable {s : State}

/-- What a move leaves that writes SE and puts no byte into its channel. -/
theorem State.Inv.set_se (h : s.Inv) {u : SE} (hu : u.Inv s.params)
    (hrx : (byteData u.rx).length ≤ (byteData s.se.rx).length) : ({ s with se := u } : State).Inv :=
  { h with
    se := hu
    lanes := fun lane => (h.lanes lane).mono rfl rfl (by cases lane <;> exact le_rfl)
      (by cases lane <;> exact le_rfl) (by cases lane; exacts [hrx, le_rfl]) }

/-- What a move leaves that writes CF and puts no byte into its channel. -/
theorem State.Inv.set_cf (h : s.Inv) {c : CF} (hc : c.Inv s.params)
    (hnrx : (byteData c.nrx).length ≤ (byteData s.cf.nrx).length) : ({ s with cf := c } : State).Inv :=
  { h with
    cf := hc
    lanes := fun lane => (h.lanes lane).mono rfl rfl (by cases lane <;> exact le_rfl)
      (by cases lane <;> exact le_rfl) (by cases lane; exacts [le_rfl, hnrx]) }

/-- The lanes of a state do not look at the nets, the ports, the script and the source buffers. -/
theorem State.Inv.lanes_of_eq (h : s.Inv) {t : State} (hse : t.se = s.se) (hcf : t.cf = s.cf)
    (hlink : t.link = s.link) (hparams : t.params = s.params) (hbench : t.bench = s.bench) (lane : Lane) :
    t.LaneInv lane := by
  have hlane : t.lane lane = s.lane lane := by cases lane <;> simp [State.lane, hlink]
  have hchannel : t.readerChannel lane = s.readerChannel lane := by
    cases lane <;> simp [State.readerChannel, hse, hcf]
  exact (h.lanes lane).mono hparams hbench (by rw [hlane]) (by rw [hlane]) (by rw [hchannel])

theorem State.Inv.set_comb (h : s.Inv) (k : Comb) : ({ s with comb := k } : State).Inv :=
  { h with lanes := h.lanes_of_eq rfl rfl rfl rfl rfl }

theorem State.Inv.set_script (h : s.Inv) (ms : List Move) : ({ s with script := ms } : State).Inv :=
  { h with lanes := h.lanes_of_eq rfl rfl rfl rfl rfl }

theorem State.Inv.set_sePorts (h : s.Inv) (p : SeCfgPorts) : ({ s with sePorts := p } : State).Inv :=
  { h with lanes := h.lanes_of_eq rfl rfl rfl rfl rfl }

theorem State.Inv.set_cfPorts (h : s.Inv) (p : CfCfgPorts) : ({ s with cfPorts := p } : State).Inv :=
  { h with lanes := h.lanes_of_eq rfl rfl rfl rfl rfl }

theorem State.Inv.set_space (h : s.Inv) (space : Space) {m : Memory} (hm : m.wf = true) :
    (s.setSpace space m).Inv := by
  cases space with
  | data => exact { h with data := hm, lanes := h.lanes_of_eq rfl rfl rfl rfl rfl }
  | key => exact { h with key := hm, lanes := h.lanes_of_eq rfl rfl rfl rfl rfl }

theorem State.Inv.space_wf (h : s.Inv) (space : Space) : (s.space space).wf = true := by
  cases space
  exacts [h.data, h.key]

theorem State.Inv.set_lane (h : s.Inv) {lane : Lane} {l : LaneState}
    (hbuf : ∀ k, s.netBuf lane = some k → l.buf.length ≤ k) (hread : l.chunkLen < s.params.rxCap) :
    (s.setLane lane l).Inv where
  legal := by simpa using h.legal
  se := by simpa using h.se
  cf := by simpa using h.cf
  data := by simpa using h.data
  key := by simpa using h.key
  lanes k := by
    obtain rfl | rfl := Lane.eq_or_eq_other lane k
    · exact ⟨by simpa using hbuf, by simpa using (h.lanes k).channel, by simpa using hread⟩
    · exact (h.lanes _).mono (by simp) (by simp) (by simp) (by simp) (by simp)

/-- The oldest word of a writer's channel taken. -/
theorem State.Inv.set_written_tail (h : s.Inv) (lane : Lane) :
    (s.setWritten lane (s.written lane).tail).Inv := by
  cases lane with
  | c2s => exact h.set_cf h.cf.set_ntx_tail le_rfl
  | s2c => exact h.set_se h.se.set_tx_tail le_rfl

theorem length_byteData_singleton_le (w : NetWord) : (byteData [w]).length ≤ 1 := by
  rw [byteData, List.length_map]
  exact List.length_filter_le _ _

/-- A word put into a reader's channel: one that is no byte, or one that the channel has room for. A test host
need not keep to that. -/
theorem State.Inv.push_read (h : s.Inv) {lane : Lane} {w : NetWord}
    (hroom : s.bench = false → byteData [w] = [] ∨ s.readerFull lane = false) :
    (s.pushRead lane w).Inv where
  legal := by simpa using h.legal
  se := by
    cases lane
    exacts [h.se.set_rx _, h.se]
  cf := by
    cases lane
    exacts [h.cf, h.cf.set_nrx _]
  data := by simpa using h.data
  key := by simpa using h.key
  lanes k := by
    obtain rfl | rfl := Lane.eq_or_eq_other lane k
    · refine ⟨by simpa using (h.lanes k).held, fun hb m hm => ?_, by simpa using (h.lanes k).read_short⟩
      rw [State.pushRead_bench] at hb
      rw [State.pushRead_readerRoom] at hm
      rw [State.pushRead_readerChannel, byteData_append, List.length_append]
      rcases hroom hb with hnil | hfull
      · simpa [hnil] using (h.lanes k).channel hb m hm
      · have hlt := (s.readerFull_eq_false_iff k).mp hfull m hm
        have hone := length_byteData_singleton_le w
        omega
    · exact (h.lanes _).mono (by simp) (by simp) (by simp) (by simp) (by simp)

end Parts

/-! ### The moves of the units -/

section Units
variable {s t : State}

theorem SE.Takes.rx {u v : SE} {w : NetWord} (h : SE.Takes u w v) : v.rx = u.rx := by
  cases h with
  | accepts | carries | discards => rfl
  | rejects | terminates | ends => exact SE.close_rx _ _
  | answers => exact keyStep_rx u w

theorem CF.TakesNet.nrx {c d : CF} {w : NetWord} (h : CF.TakesNet c w d) : d.nrx = c.nrx := by
  cases h with
  | discards | accepts | receives | completes => rfl
  | rejects | fails => exact CF.fails_nrx _ _

theorem CF.TakesCommand.nrx {p : Params} {c d : CF} {w : CmdWord} (h : CF.TakesCommand p c w d) :
    d.nrx = c.nrx := by
  cases h with
  | starts => rfl
  | fails => exact CF.fails_nrx _ _

theorem CF.Sends.nrx {p : Params} {c d : CF} (h : CF.Sends p c d) : d.nrx = c.nrx := by
  cases h <;> rfl

theorem doMove_se_inv (h : s.Inv) (hmove : doMove .se s = .next t) : t.Inv := by
  cases hw : s.se.rx with
  | nil => cases (doMove_se_empty hw).symm.trans hmove; exact h
  | cons w rest =>
    rcases doMove_se_seStep hw hmove with rfl | ⟨v, htakes, hfits, rfl⟩
    · exact h
    · refine h.set_se (htakes.inv (h.se.set_rx rest) hfits) ?_
      rw [htakes.rx, hw]
      exact byteData_length_le_of_suffix (List.suffix_cons w rest)

theorem doMove_cfNet_empty (hw : s.cf.nrx = []) : doMove .cfNet s = .next s := by
  simp [doMove, unitStep, presented, hw]

theorem doMove_cfNet_inv (h : s.Inv) (hmove : doMove .cfNet s = .next t) : t.Inv := by
  cases hw : s.cf.nrx with
  | nil => cases (doMove_cfNet_empty hw).symm.trans hmove; exact h
  | cons w rest =>
    rcases doMove_cfNet_cfNetStep hw hmove with rfl | ⟨d, htakes, hfits, rfl⟩
    · exact h
    · refine h.set_cf (htakes.inv (h.cf.set_nrx rest) hfits) ?_
      rw [htakes.nrx, hw]
      exact byteData_length_le_of_suffix (List.suffix_cons w rest)

theorem doMove_cfCommand_empty (hw : s.cf.cmd = []) : doMove .cfCommand s = .next s := by
  simp [doMove, unitStep, presented, hw]

theorem doMove_cfCommand_inv (h : s.Inv) (hmove : doMove .cfCommand s = .next t) : t.Inv := by
  cases hw : s.cf.cmd with
  | nil => cases (doMove_cfCommand_empty hw).symm.trans hmove; exact h
  | cons w rest =>
    rcases doMove_cfCommand_cfCommandStep hw hmove with rfl | ⟨d, htakes, hfits, rfl⟩
    · exact h
    · have hlengths := h.cf.cmd_lengths
      rw [hw] at hlengths
      obtain ⟨hword, hrest⟩ := List.forall_mem_cons.mp hlengths
      exact h.set_cf (htakes.inv (h.cf.set_cmd hrest) hword hfits) (by rw [htakes.nrx])

theorem doMove_cfInternal_inv (h : s.Inv) (hmove : doMove .cfInternal s = .next t) : t.Inv := by
  rcases doMove_cfInternal_cases hmove with rfl | ⟨d, hsends, hfits, -, rfl⟩
  · exact h
  · exact h.set_cf (hsends.inv h.legal h.cf hfits) (by rw [hsends.nrx])

/-! The combinational units. -/

theorem State.Inv.present (h : s.Inv) (m : Move) : (present m s).Inv := by
  cases m with
  | xform | policy => exact h.set_comb _
  | _ => exact h

theorem inputOf_eq_policyRegister {i : Instr} (h : inputOf i = .policyRegister) : i = .polIllegal := by
  cases i with
  | polIllegal => rfl
  | _ => cases h

/-- POL_ILLEGAL on the policy code `11` finds SE as it would leave it (R220, R221, R286). -/
theorem execPolIllegal_of_pol_illegal (h : s.Inv) (hpol : s.se.pol = .illegal) :
    execPolIllegal s = .next s := by
  obtain ⟨hcfg, hclosed⟩ := h.se.closed_of_pol_illegal hpol
  rw [execPolIllegal_closed hclosed, ← hpol, ← hcfg]

/-- A step on operands presented to a combinational unit writes the nets alone. -/
theorem unitStep_nets_inv {m : Move} (h : s.Inv) (hmove : unitStep m s = .next t)
    (hnets : ∀ v i, presented m s = some v → encode i = v →
      inputOf i = .nets ∨ inputOf i = .policyRegister) : t.Inv := by
  rcases unitStep_cases hmove with rfl | ⟨v, i, hv, hd, he⟩
  · exact h
  · obtain ⟨-, hword⟩ := isWordOf_of_decode hd
    rcases hnets v i hv hword with hi | hi
    · rcases exec_writes he with ⟨hi', -⟩ | ⟨hi', -⟩ | ⟨-, k, rfl⟩
      · simp [hi] at hi'
      · simp [hi] at hi'
      · exact (h.present m).set_comb k
    · obtain rfl := inputOf_eq_policyRegister hi
      have hpol : (Machine.present m s).se.pol = .illegal := by
        rw [present_se]
        exact pol_illegal_of_decode_polIllegal hv hd
      cases (execPolIllegal_of_pol_illegal (h.present m) hpol).symm.trans he
      exact h.present m

theorem doMove_alpha_inv {b : Byte} (h : s.Inv) (hmove : doMove (.alpha b) s = .next t) : t.Inv :=
  unitStep_nets_inv (m := .alpha b) h hmove fun _ _ hv hword =>
    .inl (inputOf_of_byte (hword.trans (Option.some.inj hv).symm))

theorem doMove_xform_inv {d k : Fin 27} (h : s.Inv) (hmove : doMove (.xform d k) s = .next t) : t.Inv :=
  unitStep_nets_inv (m := .xform d k) h hmove fun _ _ hv hword =>
    .inl (inputOf_of_cfgDir (hword.trans (Option.some.inj hv).symm))

theorem doMove_policy_inv {db kb : Byte} (h : s.Inv) (hmove : doMove (.policy db kb) s = .next t) :
    t.Inv :=
  unitStep_nets_inv (m := .policy db kb) h hmove fun _ _ hv hword =>
    inputOf_of_cfgPol (hword.trans (Option.some.inj hv).symm)

end Units

/-! ### The moves of the host -/

section Host
variable {s : State} (h : s.Inv) (lane : Lane)
include h

/-- No read is in progress, which is shorter than any `RX_CAP` (R8). -/
theorem State.Inv.zero_lt_rxCap : 0 < s.params.rxCap := by
  obtain ⟨-, -, hcap, -⟩ := h.legal
  exact hcap

theorem State.Inv.carry : (carry lane s).Inv := by
  have hlane := h.lanes lane
  rcases carry_cases lane s with heq | ⟨w, rest, hw, hfull, -, ⟨-, heq⟩ | ⟨-, heq⟩⟩ <;> rw [heq]
  · exact h
  · have hrest : rest = (s.written lane).tail := by rw [hw]; rfl
    rw [hrest]
    refine (h.set_written_tail lane).set_lane (fun k hk => ?_) (by simpa using hlane.read_short)
    rw [State.setWritten_netBuf] at hk
    have hlt : ¬k ≤ (s.lane lane).buf.length := fun hle => by
      cases hfull.symm.trans ((s.full_eq_true_iff lane).mpr ⟨k, hk, hle⟩)
    rw [List.length_append, List.length_singleton]
    omega
  · have hrest : rest = (s.written lane).tail := by rw [hw]; rfl
    rw [hrest]
    exact (h.set_written_tail lane).set_lane (by simpa using hlane.held) (by simpa using hlane.read_short)

theorem State.Inv.deliver (last : Bool) : (deliver lane last s).Inv := by
  have hlane := h.lanes lane
  rcases deliver_cases lane s last with heq | ⟨b, rest, hb, -, hroom, hread, heq⟩ <;> rw [heq]
  · exact h
  · refine (h.push_read fun _ => .inr hroom).set_lane (fun k hk => ?_) ?_
    · have hle := hlane.held k (by simpa using hk)
      rw [hb, List.length_cons] at hle
      exact Nat.le_of_succ_le hle
    · rw [State.pushRead_params]
      split
      · exact h.zero_lt_rxCap
      · next hlast => exact hread.resolve_left hlast

/-- The end of a direction (R94, R95): a word that is no byte, and nothing more. -/
theorem State.Inv.push_end {w : NetWord} (hw : byteData [w] = []) :
    ((s.pushRead lane w).setLane lane { s.lane lane with ended := true }).Inv :=
  (h.push_read fun _ => .inl hw).set_lane (by simpa using (h.lanes lane).held)
    (by simpa using (h.lanes lane).read_short)

theorem State.Inv.deliverEof : (deliverEof lane s).Inv := by
  rcases deliverEof_cases lane s with heq | ⟨-, -, -, -, heq⟩ <;> rw [heq]
  · exact h
  · exact h.push_end lane byteData_eofWord

theorem State.Inv.deliverErr : (deliverErr lane s).Inv := by
  rcases deliverErr_cases lane s with heq | ⟨-, heq⟩ <;> rw [heq]
  · exact h
  · exact h.push_end lane byteData_ioerrWord

theorem State.Inv.dropWord : (dropWord lane s).Inv := by
  have hlane := h.lanes lane
  rcases dropWord_cases lane s with heq | ⟨-, ⟨b, rest, hb, heq⟩ | ⟨-, -, heq⟩⟩ <;> rw [heq]
  · exact h
  · refine h.set_lane (fun k hk => ?_) hlane.read_short
    have hle := hlane.held k hk
    rw [hb, List.length_cons] at hle
    exact Nat.le_of_succ_le hle
  · exact h.set_written_tail lane

theorem State.Inv.endConnection : (endConnection lane s).Inv := by
  have hwriter : (s.setLane lane { s.lane lane with closed := true, writerReset := true }).Inv :=
    h.set_lane (h.lanes lane).held (h.lanes lane).read_short
  exact hwriter.set_lane (fun _ _ => Nat.zero_le _) hwriter.zero_lt_rxCap

theorem State.Inv.resetSe : (resetSe s).Inv := by
  refine State.Inv.endConnection (h.set_se (SE.resetStep_inv h.legal s.sePorts) ?_) .s2c
  have hrx : (SE.resetStep s.sePorts).rx = [] := by
    cases hlegal : seCfgLegal s.sePorts.sent s.sePorts.pol with
    | true => rw [SE.resetStep_legal _ hlegal]
    | false => rw [SE.resetStep_illegal _ hlegal]
  rw [hrx]
  exact Nat.zero_le _

theorem State.Inv.resetCf : (resetCf s).Inv := by
  refine State.Inv.endConnection (h.set_cf (CF.resetStep_inv h.legal s.cfPorts) ?_) .c2s
  have hnrx : (CF.resetStep s.cfPorts).nrx = [] := by
    cases hlegal : cfCfgLegal s.cfPorts.sent with
    | true => rw [CF.resetStep_legal _ hlegal]
    | false => rw [CF.resetStep_illegal _ hlegal]
  rw [hnrx]
  exact Nat.zero_le _

theorem State.Inv.set_lane_empty : (s.setLane lane LaneState.empty).Inv :=
  h.set_lane (fun _ _ => Nat.zero_le _) h.zero_lt_rxCap

theorem State.Inv.connect : (connect s).Inv := by
  rcases connect_cases s with heq | ⟨-, heq⟩ <;> rw [heq]
  · exact h
  · exact (h.set_lane_empty .c2s).set_lane_empty .s2c

theorem State.Inv.sendCommand (bits : Nat) : (sendCommand bits s).Inv := by
  rcases sendCommand_cases s bits with heq | ⟨w, rfl, -, heq⟩ <;> rw [heq]
  · exact h
  · have hpos : 0 < 2 ^ s.params.lenW := Nat.two_pow_pos _
    refine h.set_cf (h.cf.set_cmd (List.forall_mem_append.mpr ⟨h.cf.cmd_lengths, ?_⟩)) le_rfl
    exact List.forall_mem_singleton.mpr ⟨Nat.mod_lt _ hpos, Nat.mod_lt _ hpos⟩

theorem State.Inv.benchPut (w : NetWord) : (benchPut lane w s).Inv := by
  rcases benchPut_cases lane s w with heq | ⟨hbench, heq⟩ <;> rw [heq]
  · exact h
  · exact h.push_read fun hb => by cases hbench.symm.trans hb

theorem State.Inv.benchTake : (benchTake lane s).Inv := by
  rcases benchTake_cases lane s with heq | ⟨-, heq⟩ <;> rw [heq]
  · exact h
  · exact h.set_written_tail lane

theorem State.Inv.place {t : State} {space : Space} {a : Nat} {b : Byte}
    (hmove : place space a b s = .next t) : t.Inv := by
  obtain ⟨-, -, rfl⟩ := place_cases hmove
  exact h.set_space space (Memory.wf_write _ a b (h.space_wf space))

end Host

/-! ### Steps and runs -/

/-- Every move keeps the invariant. -/
theorem doMove_inv {s t : State} {m : Move} (h : s.Inv) (hmove : doMove m s = .next t) : t.Inv := by
  cases m with
  | se => exact doMove_se_inv h hmove
  | cfCommand => exact doMove_cfCommand_inv h hmove
  | cfNet => exact doMove_cfNet_inv h hmove
  | cfInternal => exact doMove_cfInternal_inv h hmove
  | alpha => exact doMove_alpha_inv h hmove
  | xform => exact doMove_xform_inv h hmove
  | policy => exact doMove_policy_inv h hmove
  | place => exact h.place hmove
  | pass => cases hmove; exact h
  | resetSe => cases hmove; exact h.resetSe
  | resetCf => cases hmove; exact h.resetCf
  | setSePorts p => cases hmove; exact h.set_sePorts p
  | setCfPorts p => cases hmove; exact h.set_cfPorts p
  | command bits => cases hmove; exact h.sendCommand bits
  | connect => cases hmove; exact h.connect
  | carry lane => cases hmove; exact h.carry lane
  | deliver lane last => cases hmove; exact h.deliver lane last
  | deliverEof lane => cases hmove; exact h.deliverEof lane
  | deliverErr lane => cases hmove; exact h.deliverErr lane
  | drop lane => cases hmove; exact h.dropWord lane
  | takeRes => cases hmove; exact h.set_cf h.cf.set_res_tail le_rfl
  | takeSeEv => cases hmove; exact h.set_se (h.se.set_ev _) le_rfl
  | takeCfEv => cases hmove; exact h.set_cf (h.cf.set_ev _) le_rfl
  | benchRx w => cases hmove; exact h.benchPut .c2s w
  | benchNrx w => cases hmove; exact h.benchPut .s2c w
  | benchTx => cases hmove; exact h.benchTake .s2c
  | benchNtx => cases hmove; exact h.benchTake .c2s

/-- Settles O58: the move that a step makes keeps the invariant, whichever it is. -/
theorem stepKeepsInvariant : Obligations.StepKeepsInvariant := by
  intro s t h hstep
  cases hscript : s.script with
  | nil => cases (step_nil s hscript).symm.trans hstep; exact h
  | cons m rest =>
    rw [step_cons s m rest hscript] at hstep
    exact doMove_inv (h.set_script rest) hstep

/-- The invariant right after reset, with any legal parameters, either host and any script. -/
theorem inv_of_reset {p : Params} (hp : p.Legal) (bench : Bool) (script : List Move) :
    ({ State.reset with params := p, bench := bench, script := script } : State).Inv where
  legal := hp
  se := SE.resetStep_inv hp State.reset.sePorts
  cf := CF.resetStep_inv hp State.reset.cfPorts
  data := rfl
  key := rfl
  lanes lane := by
    obtain ⟨-, -, hcap, -⟩ := hp
    cases lane <;> exact ⟨fun _ _ => Nat.zero_le _, fun _ _ _ => Nat.zero_le _, hcap⟩

/-- Settles O59, by induction on the run. -/
theorem reachableMeetsInvariant : Obligations.ReachableMeetsInvariant := by
  intro s h
  induction h with
  | reset p bench script hp => exact inv_of_reset hp bench script
  | step s t _ hstep ih => exact stepKeepsInvariant s t ih hstep

end Sys2Proof.Machine
end

section
/-! SUPPORT. CF's session (R240 to R253): the row of each command, of each result word and of the internal step, and
what its operation leaves. Then the statements about them. -/

namespace Sys2Proof.Machine

/-! ### START and the commands that fail (R240 to R242) -/

/-- The latched lengths are the command's, when these fit their registers (R42, R240). -/
theorem startStep_of_lt {p : Params} {c : CF} {w : CmdWord} (hn : w.n < 2 ^ p.lenW) (hm : w.m < 2 ^ p.lenW) :
    startStep p c w = { c with
      n := w.n, m := w.m, txp := 0, cc := 0, ph := false, allSent := false, cst := .hsWait
      ntx := c.ntx ++ [byteWord true c.sent] } := by
  simp only [startStep, Nat.mod_eq_of_lt hn, Nat.mod_eq_of_lt hm, CF.emitNet]

/-- In IDLE a failure writes no CLOSE (R288). -/
theorem CF.fails_of_idle {c : CF} (hcst : c.cst = .idle) (x : Cause) : c.fails x = c.failedBy x false := by
  simp [CF.fails_eq_failedBy, hcst]

section Command
variable {s : State} {w : CmdWord} {rest : List CmdWord}

/-- The row CF's vector names for a command in IDLE, with its OP and KEYOK given (R132). -/
theorem decode_cfCommandVector_idle {op : BitVec 2} {keyOk : Bool} (hcst : s.cf.cst = .idle)
    (hop : w.op = op) (hkey : decide (w.n ≤ w.m) = keyOk) :
    decode (.cfDv (s.cf.commandVector w)) = cfCommandOperation .idle s.cf.ph s.cf.allSent op keyOk := by
  subst hop hkey
  rw [← hcst]
  exact decodeCf_commandVector _ _

theorem execCfStartOk_enabled (ph a : Bool) (h : CfHasCmd s w rest 1 0) :
    exec (.cfStartOk ph a) s =
      .next { s with cf := startStep s.params { s.cf with cmd := rest } w } := by
  obtain ⟨hw, hroom⟩ := h
  simp only [exec, execCfStartOk]
  exact cfTakeCommand_enabled hw ((CF.hasRoom_iff ..).mpr hroom)

/-- The one way a command fails CF in IDLE: no network word is written, so that only the result needs room
(R241, R242). -/
theorem cfTakeCommand_fails_enabled (x : Cause) (h : CfHasCmd s w rest 0 1) (hcst : s.cf.cst = .idle) :
    cfTakeCommand failNetWords (fun _ => 1) (fun c _ => c.fails x) s =
      .next { s with cf := ({ s.cf with cmd := rest } : CF).failedBy x false } := by
  obtain ⟨hw, hroom⟩ := h
  have hneed : failNetWords s.cf = 0 := if_neg (by simp [hcst])
  rw [cfTakeCommand_enabled hw ((CF.hasRoom_iff ..).mpr (hneed ▸ hroom)), CF.fails_of_idle]
  exact hcst

end Command

/-- Settles O20: an enabled step that latches lengths which fit their registers. -/
theorem startAccepted : Obligations.StartAccepted := by
  intro s w rest h hcst hop hkey hn hm
  refine ⟨decode_cfCommandVector_idle hcst hop (decide_eq_true hkey), ?_⟩
  rw [execCfStartOk_enabled _ _ h, startStep_of_lt hn hm]
  rfl

/-- Settles O21: the four rows fail in one way, each with its own cause. -/
theorem startRefused : Obligations.StartRefused := by
  intro s w rest h hcst
  refine ⟨fun hop hshort =>
      ⟨decode_cfCommandVector_idle hcst hop (decide_eq_false (Nat.not_le_of_lt hshort)), ?keylen⟩,
    fun hop => ⟨decode_cfCommandVector_idle hcst hop rfl, ?op00⟩,
    fun hop => ⟨decode_cfCommandVector_idle hcst hop rfl, ?op10⟩,
    fun hop => ⟨decode_cfCommandVector_idle hcst hop rfl, ?op11⟩⟩
  case keylen | op00 | op10 | op11 => exact cfTakeCommand_fails_enabled _ h hcst

/-! ### The internal step (R245, R246) -/

/-- The byte read for stream position `j`, while `j >> 1` fits the lines of `src_addr` (R81, R243). -/
theorem State.streamByte_of_lt (s : State) {j : Nat} (hj : j / 2 < 2 ^ s.params.lenW) :
    s.streamByte j = if j % 2 = 0 then s.data.read (j / 2) else s.key.read (j / 2) := by
  rw [State.streamByte, State.sourceData_bits, streamAddr, Nat.mod_eq_of_lt hj, streamSpace]
  split <;> rfl

/-- A position of the stream is a position of its source buffer (R42, R243). -/
theorem div_two_lt_of_lt_two_mul {j n b : Nat} (hj : j < 2 * n) (hn : n < b) : j / 2 < b := by
  omega

theorem chunkEnds_eq_decide (p : Params) (c : CF) :
    chunkEnds p c = decide (c.cc.toNat + 1 = p.chunkMax ∨ c.txp + 1 = 2 * c.n) :=
  Bool.eq_iff_iff.mpr (chunkEnds_iff.trans decide_eq_true_iff.symm)

/-- What CF_SEND_BYTE leaves in the send phase: TXP does not overflow its `LEN_W + 1` bits (R43, R245). -/
theorem sendStep_of_lt {p : Params} {b : Byte} {c : CF} (hph : c.ph = false) (hmore : c.txp < 2 * c.n)
    (hn : c.n < 2 ^ p.lenW) :
    sendStep p b c = { c with
      ntx := c.ntx ++ [byteWord (chunkEnds p c) b], txp := c.txp + 1
      cc := if chunkEnds p c then 0 else c.cc + 1, ph := chunkEnds p c } := by
  have htxp : (c.txp + 1) % 2 ^ (p.lenW + 1) = c.txp + 1 := Nat.mod_eq_of_lt (by rw [pow_succ]; omega)
  have hcc : BitVec.ofNat 16 (c.cc.toNat + 1) = c.cc + 1 := by simp [BitVec.ofNat_add]
  simp only [sendStep, CF.emitNet, htxp, hcc, hph, Bool.false_or]

/-- The internal vector picks no operation outside the send phase, nor with `AS = 1` in any state (R132, R246). -/
theorem cfInternalOperation_rejects {cst : CfSt} {ph a : Bool} (h : cst ≠ .stream ∨ ph = true ∨ a = true)
    (more : Bool) : ∃ r, cfInternalOperation cst ph a more = .error r := by
  cases cst with
  | stream =>
    rcases h with hcst | rfl | rfl
    · exact absurd rfl hcst
    · exact ⟨_, rfl⟩
    · cases ph <;> exact ⟨_, rfl⟩
  | _ => exact ⟨_, rfl⟩

/-- A unit whose word picks no operation holds (R132). -/
theorem unitStep_rejected {m : Move} {s : State} {v : InstrWord} {r : Reject}
    (hv : presented m s = some v) (hr : decode v = .error r) : unitStep m s = .next s := by
  simp only [unitStep, hv, hr]

section Internal
variable {s : State}

/-- The row CF's internal vector names in the send phase, with MORE given (R132). -/
theorem decode_cfInternalVector {more : Bool} (hcst : s.cf.cst = .stream) (hph : s.cf.ph = false)
    (ha : s.cf.allSent = false) (hmore : decide (s.cf.txp < 2 * s.cf.n) = more) :
    decode (.cfDv s.cf.internalVector) = .ok (if more then .cfSendByte else .cfSendSent) := by
  rw [decode, decodeCf_internalVector, hcst, hph, ha, hmore]
  rfl

theorem decode_cfInternalVector_rejects
    (h : s.cf.cst ≠ .stream ∨ s.cf.ph = true ∨ s.cf.allSent = true) :
    ∃ r, decode (.cfDv s.cf.internalVector) = .error r := by
  rw [decode, decodeCf_internalVector]
  exact cfInternalOperation_rejects h _

theorem doMove_cfInternal_rejected {r : Reject} (hr : decode (.cfDv s.cf.internalVector) = .error r) :
    doMove .cfInternal s = .next s :=
  unitStep_rejected (m := .cfInternal) rfl hr

theorem execCfSendByte_enabled (h : CfRoom s 1 0) :
    exec .cfSendByte s =
      .next { s with cf := sendStep s.params (s.streamByte s.cf.txp) s.cf } := by
  simp only [exec, execCfSendByte]
  exact cfSend_enabled ((CF.hasRoom_iff ..).mpr h)

theorem doMove_cfInternal_sendByte (hdecode : decode (.cfDv s.cf.internalVector) = .ok .cfSendByte)
    (h : CfRoom s 1 0) :
    doMove .cfInternal s = .next { s with cf := sendStep s.params (s.streamByte s.cf.txp) s.cf } :=
  (unitStep_decoded (m := .cfInternal) rfl hdecode).trans (execCfSendByte_enabled h)

theorem execCfSendSent_enabled (h : CfRoom s 1 0) :
    exec .cfSendSent s = .next { s with cf := { s.cf with
      ntx := s.cf.ntx ++ [byteWord true s.cf.sent], allSent := true, ph := true } } := by
  simp only [exec, execCfSendSent]
  exact cfSend_enabled ((CF.hasRoom_iff ..).mpr h)

/-- CF asks for stream byte TXP in every state in which CF_SEND_BYTE is enabled (R77, R81, R245). -/
theorem sourceRequest_of_send (hdecode : decode (.cfDv s.cf.internalVector) = .ok .cfSendByte)
    (h : CfRoom s 1 0) :
    sourceRequest s =
      some { sel := (streamSpace s.cf.txp).bits, addr := streamAddr s.params.lenW s.cf.txp } :=
  if_pos (cfEnabled_eq_some_iff.mpr ⟨_, rfl, hdecode, (CF.hasRoom_iff ..).mpr h⟩)

/-- The host's answer is the byte that CF_SEND_BYTE sends (R81, R245). -/
theorem sourceAnswer_of_send (hdecode : decode (.cfDv s.cf.internalVector) = .ok .cfSendByte)
    (h : CfRoom s 1 0) : sourceAnswer s = some (s.streamByte s.cf.txp) := by
  rw [sourceAnswer, sourceRequest_of_send hdecode h]
  rfl

end Internal

/-- `src_sel` of stream position `j` (R81, R243). -/
theorem streamSpace_bits (j : Nat) : (streamSpace j).bits = if j % 2 = 0 then 0b0 else 0b1 := by
  unfold streamSpace
  split <;> rfl

/-- Settles O24: the row with MORE = 1, the source read it makes, and its step on counters that do not overflow. -/
theorem streamByteSent : Obligations.StreamByteSent := by
  intro s h hcst hph ha hmore hn _ _
  have hdecode : decode (.cfDv s.cf.internalVector) = .ok .cfSendByte :=
    decode_cfInternalVector hcst hph ha (decide_eq_true hmore)
  have haddr := div_two_lt_of_lt_two_mul hmore hn
  have hbyte : s.streamByte s.cf.txp =
      if s.cf.txp % 2 = 0 then s.data.read (s.cf.txp / 2) else s.key.read ((s.cf.txp - 1) / 2) := by
    rw [s.streamByte_of_lt haddr]
    split
    · rfl
    · next hodd => rw [show s.cf.txp / 2 = (s.cf.txp - 1) / 2 by omega]
  refine ⟨hdecode, ?_, ?_, ?_⟩
  · rw [sourceRequest_of_send hdecode h, streamSpace_bits, streamAddr, Nat.mod_eq_of_lt haddr]
  · rw [sourceAnswer_of_send hdecode h, hbyte]
  · rw [execCfSendByte_enabled h, sendStep_of_lt hph hmore hn, hbyte, chunkEnds_eq_decide]
    rfl

/-- Settles O25: the row with MORE = 0 while AS is 0, and no row once it is 1. -/
theorem sentinelSentOnce : Obligations.SentinelSentOnce := by
  refine fun s => ⟨fun h hcst hph ha hend => ⟨?_, execCfSendSent_enabled h⟩, fun ha => ?_⟩
  · exact decode_cfInternalVector hcst hph ha (decide_eq_false (by omega))
  · obtain ⟨r, hr⟩ := decode_cfInternalVector_rejects (.inr (.inr ha))
    exact ⟨by simp [hr], doMove_cfInternal_rejected hr⟩

/-! ### The words of the read (R247 to R252) -/

/-- In STREAM a failure writes a CLOSE (R288). -/
theorem CF.fails_of_stream {c : CF} (hcst : c.cst = .stream) (x : Cause) : c.fails x = c.failedBy x true := by
  simp [CF.fails_eq_failedBy, hcst]

/-- What CF_RECV_BYTE leaves of a CF in its read (R247). -/
theorem recvStep_of_ph {c : CF} (hph : c.ph = true) (w : NetWord) :
    recvStep c w = { c with
      res := c.res ++ [.byte w.data], ph := decide (¬(w.last = true ∧ c.allSent = false)) } := by
  cases hlast : w.last <;> cases ha : c.allSent <;> simp [recvStep, CF.emitRes, hph, hlast, ha]

section Receive
variable {s : State} {w : NetWord} {rest : List NetWord}

/-- The row CF's vector names for a net word in its read, with the word's kind given (R132). -/
theorem decode_cfNetVector_read {kind : Kind} (hcst : s.cf.cst = .stream) (hph : s.cf.ph = true)
    (hkind : w.kind = kind) :
    decode (.cfDv (s.cf.netVector w)) =
      cfNetOperation .stream true s.cf.allSent kind (w.data == s.cf.sent) := by
  rw [decode_cfNetVector hcst hkind, hph]

theorem execCfRecvByte_enabled (a : Bool) (h : CfHasNet s w rest 0 1) (hph : s.cf.ph = true) :
    exec (.cfRecvByte a) s = .next { s with cf := { s.cf with
      nrx := rest, res := s.cf.res ++ [.byte w.data]
      ph := decide (¬(w.last = true ∧ s.cf.allSent = false)) } } := by
  obtain ⟨hw, hroom⟩ := h
  simp only [exec, execCfRecvByte]
  rw [cfTakeNet_enabled hw ((CF.hasRoom_iff ..).mpr hroom), recvStep_of_ph]
  exact hph

theorem execCfRecvTerm_enabled (a : Bool) (h : CfHasNet s w rest 1 1) :
    exec (.cfRecvTerm a) s =
      .next { s with cf := ({ s.cf with nrx := rest } : CF).completed } := by
  obtain ⟨hw, hroom⟩ := h
  simp only [exec, execCfRecvTerm]
  exact cfTakeNet_enabled hw ((CF.hasRoom_iff ..).mpr hroom)

/-- In STREAM an operation that may fail needs room for one CLOSE and one FAIL. -/
theorem cfTakeNet_stream_enabled {act : CF → NetWord → CF} (h : CfHasNet s w rest 1 1)
    (hcst : s.cf.cst = .stream) :
    cfTakeNet failNetWords (fun _ => 1) act s =
      .next { s with cf := act { s.cf with nrx := rest } w } := by
  obtain ⟨hw, hroom⟩ := h
  have hneed : failNetWords s.cf = 1 := if_pos (.inr hcst)
  exact cfTakeNet_enabled hw ((CF.hasRoom_iff ..).mpr (hneed ▸ hroom))

/-- The one way the read fails, with the results already written standing (R249, R250). -/
theorem cfTakeNet_fails_enabled (x : Cause) (h : CfHasNet s w rest 1 1) (hcst : s.cf.cst = .stream) :
    cfTakeNet failNetWords (fun _ => 1) (fun c _ => c.fails x) s =
      .next { s with cf := ({ s.cf with nrx := rest } : CF).failedBy x true } := by
  rw [cfTakeNet_stream_enabled h hcst, CF.fails_of_stream]
  exact hcst

/-- A KIND-11 word fails it in the same way (R251). -/
theorem execCfNetIllegal2_enabled (a sm : Bool) (h : CfHasNet s w rest 1 1) (hcst : s.cf.cst = .stream) :
    exec (.cfNetIllegal2 a sm) s =
      .next { s with cf := ({ s.cf with nrx := rest } : CF).failedBy .illegalEvt true } := by
  simp only [exec, execCfNetIllegal2]
  rw [cfTakeNet_stream_enabled h hcst, netIllegalStep_of_ne_hsWait (by simp [hcst]), CF.fails_of_stream]
  exact hcst

/-- A word that CF drops (R252). -/
theorem cfTakeNet_discard_enabled (h : CfHasNet s w rest 0 0) :
    cfTakeNet (fun _ => 0) (fun _ => 0) (fun c _ => c) s =
      .next { s with cf := { s.cf with nrx := rest } } := by
  obtain ⟨hw, hroom⟩ := h
  exact cfTakeNet_enabled hw ((CF.hasRoom_iff ..).mpr hroom)

end Receive

/-- Settles O26: the row of a byte that is not the sentinel, and its step in the read. -/
theorem resultByteReceived : Obligations.ResultByteReceived := by
  intro s w rest h hcst hph hkind hdata
  exact ⟨by simp [decode_cfNetVector_read hcst hph hkind, cfNetOperation, hdata],
    execCfRecvByte_enabled _ h hph⟩

/-- Settles O27: the row of the sentinel, and the completed session. -/
theorem sentinelCompletesSession : Obligations.SentinelCompletesSession := by
  intro s w rest h hcst hph hkind hdata
  exact ⟨by simp [decode_cfNetVector_read hcst hph hkind, cfNetOperation, hdata],
    execCfRecvTerm_enabled _ h⟩

/-- Settles O28: the three rows fail in one way, each with its own cause. -/
theorem receivingFails : Obligations.ReceivingFails := by
  intro s w rest h hcst hph
  exact ⟨fun hkind => ⟨decode_cfNetVector_read hcst hph hkind, cfTakeNet_fails_enabled _ h hcst⟩,
    fun hkind => ⟨decode_cfNetVector_read hcst hph hkind, cfTakeNet_fails_enabled _ h hcst⟩,
    fun hkind => ⟨decode_cfNetVector_read hcst hph hkind, execCfNetIllegal2_enabled _ _ h hcst⟩⟩

/-- Settles O29: the row of each of the three states, which drops the word in one way. -/
theorem idleAndTerminalDiscard : Obligations.IdleAndTerminalDiscard := by
  intro s w rest h
  exact ⟨fun hcst => ⟨decode_cfNetVector hcst rfl, cfTakeNet_discard_enabled h⟩,
    fun hcst => ⟨decode_cfNetVector hcst rfl, cfTakeNet_discard_enabled h⟩,
    fun hcst => ⟨decode_cfNetVector hcst rfl, cfTakeNet_discard_enabled h⟩⟩

/-! ### CF's holds (R253) -/

/-- Outside IDLE a command picks no operation (R132). -/
theorem cfCommandOperation_outside_idle {cst : CfSt}
    (h : cst = .hsWait ∨ cst = .stream ∨ cst = .done ∨ cst = .fail) (ph a : Bool) (op : BitVec 2)
    (keyOk : Bool) : cfCommandOperation cst ph a op keyOk = .error .commandOutsideIdle := by
  rcases h with rfl | rfl | rfl | rfl <;> rfl

/-- Settles O30: three vectors that no row lists, and an empty channel. -/
theorem clientHolds : Obligations.ClientHolds := by
  refine fun s => ⟨fun w rest hw hcst => ?_, fun w rest hw hcst hph => ?_, doMove_cfNet_empty, fun h => ?_⟩
  · have hdecode : decode (.cfDv (s.cf.commandVector w)) = .error .commandOutsideIdle := by
      rw [decode, decodeCf_commandVector, cfCommandOperation_outside_idle hcst]
    exact ⟨hdecode, unitStep_rejected (m := .cfCommand) (by simp [presented, hw]) hdecode⟩
  · have hdecode : decode (.cfDv (s.cf.netVector w)) = .error .netWordInSendPhase := by
      rw [decode_cfNetVector hcst rfl, hph]
      rfl
    exact ⟨hdecode, unitStep_rejected (m := .cfNet) (by simp [presented, hw]) hdecode⟩
  · obtain ⟨r, hr⟩ := decode_cfInternalVector_rejects (h.imp_right .inl)
    exact doMove_cfInternal_rejected hr

end Sys2Proof.Machine
end

section
/-! SUPPORT. Where each step of CF leads (R205 to R208, R240 to R252). Then the statement about CF's transitions. -/

namespace Sys2Proof.Machine

section Transitions
variable {p : Params} {c d : CF}

theorem CF.TakesNet.cst_of_idle_or_terminal {w : NetWord} (h : CF.TakesNet c w d)
    (hcst : c.cst = .idle ∨ c.terminal = true) : d.cst = c.cst := by
  cases h with
  | discards => rfl
  | accepts hcst' | rejects _ hcst' | receives hcst' | completes hcst' | fails _ hcst' =>
    simp [CF.terminal, hcst'] at hcst

theorem CF.TakesNet.cst_of_hsWait {w : NetWord} (h : CF.TakesNet c w d) (hcst : c.cst = .hsWait) :
    d.cst = if w.kind = .byte ∧ w.data = c.sent then .stream else .fail := by
  cases h with
  | accepts _ hkind hdata => simp [hkind, hdata]
  | rejects _ _ hword => simp [hword]
  | discards hcst' => simp [hcst] at hcst'
  | receives hcst' | completes hcst' | fails _ hcst' => cases hcst.symm.trans hcst'

theorem CF.TakesNet.cst_of_stream {w : NetWord} (h : CF.TakesNet c w d) (hcst : c.cst = .stream) :
    d.cst = if w.kind = .byte then (if w.data = c.sent then .done else .stream) else .fail := by
  cases h with
  | receives _ _ hkind hdata => simp [recvStep, hcst, hkind, hdata]
  | completes _ _ hkind hdata => simp [CF.completed, hkind, hdata]
  | fails _ _ _ hkind => simp [hkind]
  | discards hcst' => simp [hcst] at hcst'
  | accepts hcst' | rejects _ hcst' => cases hcst.symm.trans hcst'

theorem CF.Sends.cst (h : CF.Sends p c d) : c.cst = .stream ∧ d.cst = .stream := by
  cases h with
  | byte _ hcst | sentinel hcst => exact ⟨hcst, hcst⟩

theorem CF.TakesCommand.cst {w : CmdWord} (h : CF.TakesCommand p c w d) :
    c.cst = .idle ∧ d.cst = if w.op = opStart ∧ w.n ≤ w.m then .hsWait else .fail := by
  cases h with
  | starts hcst hop hkey => exact ⟨hcst, (if_pos ⟨hop, hkey⟩).symm⟩
  | fails _ hcst hword => exact ⟨hcst, (CF.fails_cst _ _).trans (if_neg hword).symm⟩

end Transitions

/-- Settles O41, by the source of the step: a hold changes nothing, and a step goes where its case says. -/
theorem clientTransitions : Obligations.ClientTransitions := by
  intro s t hne
  refine ⟨fun w rest hw h => ?_, fun h => ?_, fun w rest hw h => ?_⟩
  · obtain ⟨d, htakes, -, rfl⟩ := (doMove_cfNet_cfNetStep hw h).resolve_left hne
    exact ⟨fun hcst => htakes.cst_of_idle_or_terminal hcst,
      fun hcst => htakes.cst_of_hsWait hcst, fun hcst => htakes.cst_of_stream hcst⟩
  · obtain ⟨d, hsends, -, -, rfl⟩ := (doMove_cfInternal_cases h).resolve_left hne
    exact hsends.cst
  · obtain ⟨d, htakes, -, rfl⟩ := (doMove_cfCommand_cfCommandStep hw h).resolve_left hne
    exact htakes.cst

end Sys2Proof.Machine
end

section
/-! SUPPORT. A chunk of the stream (R244): the words that CF sends, and the induction over its bytes. Then the
statement about a whole chunk. -/

namespace Sys2Proof.Machine

/-- The words of `len` stream bytes from position `j` on, LAST on the final one only (R243, R244). -/
def State.chunkWords (s : State) (j len : Nat) : List NetWord :=
  (List.range len).map fun i => byteWord (decide (i + 1 = len)) (s.streamByte (j + i))

theorem State.chunkWords_succ (s : State) (j len : Nat) :
    s.chunkWords j (len + 1) =
      byteWord (decide (len = 0)) (s.streamByte j) :: s.chunkWords (j + 1) len := by
  simp [State.chunkWords, List.range_succ_eq_map, Function.comp_def, Nat.add_right_comm, Nat.add_assoc,
    eq_comm (a := 0)]

/-- CF, in its send phase, has `len` bytes left of a chunk, and room for them. -/
structure State.SendsChunk (s : State) (len : Nat) : Prop where
  stream : s.cf.cst = .stream
  sending : s.cf.ph = false
  unsent : s.cf.allSent = false
  length_fits : s.cf.n < 2 ^ s.params.lenW
  legal : s.params.Legal
  left : len = min (s.params.chunkMax - s.cf.cc.toNat) (2 * s.cf.n - s.cf.txp)
  room : s.cf.ntx.length + len ≤ s.params.obuf
  res_fits : s.cf.res.length ≤ s.params.obuf

/-- The state after stream byte TXP has been sent, `last` when the chunk ends with it (R245). -/
def State.byteSent (s : State) (last : Bool) : State :=
  { s with cf := { s.cf with
    ntx := s.cf.ntx ++ [byteWord last (s.streamByte s.cf.txp)], txp := s.cf.txp + 1
    cc := if last then 0 else s.cf.cc + 1, ph := last } }

namespace State.SendsChunk
variable {s : State} {len : Nat}

/-- A chunk ends where no byte of it is left. -/
theorem chunkEnds (h : s.SendsChunk (len + 1)) : chunkEnds s.params s.cf = decide (len = 0) := by
  have hleft := h.left
  rw [chunkEnds_eq_decide, decide_eq_decide]
  omega

/-- One byte of a chunk (R245). -/
theorem runMove_byte (h : s.SendsChunk (len + 1)) :
    runMove (len + 1) .cfInternal s = runMove len .cfInternal (s.byteSent (decide (len = 0))) := by
  have hleft := h.left
  have hroom := h.room
  have hmore : s.cf.txp < 2 * s.cf.n := by omega
  have hdecode : decode (.cfDv s.cf.internalVector) = .ok .cfSendByte :=
    decode_cfInternalVector h.stream h.sending h.unsent (decide_eq_true hmore)
  have hmove : doMove .cfInternal { s with script := List.replicate len .cfInternal } =
      .next { s.byteSent (decide (len = 0)) with script := List.replicate len .cfInternal } := by
    refine (doMove_cfInternal_sendByte (s := { s with script := List.replicate len .cfInternal }) hdecode
      ⟨by simp only; omega, h.res_fits⟩).trans ?_
    rw [sendStep_of_lt h.sending hmore h.length_fits, h.chunkEnds]
    rfl
  rw [runMove_succ, hmove]
  rfl

/-- After a byte that does not end the chunk, the other bytes are left of it. -/
theorem byteSent (h : s.SendsChunk (len + 2)) : (s.byteSent false).SendsChunk (len + 1) := by
  have hleft := h.left
  have hroom := h.room
  obtain ⟨-, hmax, -⟩ := h.legal
  have hcc : (s.cf.cc + 1).toNat = s.cf.cc.toNat + 1 :=
    BitVec.toNat_add_of_lt (by simp; omega)
  refine ⟨h.stream, rfl, h.unsent, h.length_fits, h.legal, ?_, ?_, h.res_fits⟩
  · simp only [State.byteSent, Bool.false_eq_true, if_false, hcc]
    omega
  · simp only [State.byteSent, List.length_append, List.length_singleton]
    omega

/-- The rest of a chunk, by induction on the bytes left of it: its words, and then the read (R244). -/
theorem runMove_chunk (h : s.SendsChunk (len + 1)) :
    ∃ t, runMove (len + 1) .cfInternal s = .next t ∧
      t.cf.ntx = s.cf.ntx ++ s.chunkWords s.cf.txp (len + 1) ∧ t.cf.txp = s.cf.txp + (len + 1) ∧
      t.cf.cc = 0 ∧ t.cf.ph = true ∧ t.cf.cst = .stream := by
  induction len generalizing s with
  | zero =>
    exact ⟨_, h.runMove_byte.trans (runMove_zero _ _), rfl, rfl, rfl, rfl, h.stream⟩
  | succ len ih =>
    obtain ⟨t, hrun, hntx, htxp, hend⟩ := ih h.byteSent
    refine ⟨t, h.runMove_byte.trans hrun, ?_, ?_, hend⟩
    · rw [hntx, s.chunkWords_succ, List.append_cons]
      rfl
    · rw [htxp]
      exact Nat.add_right_comm ..

end State.SendsChunk

/-- The words of a chunk by the contents of the source buffers (R243). -/
theorem State.chunkWords_eq (s : State) {j len n : Nat} (hj : j + len ≤ 2 * n)
    (hn : n < 2 ^ s.params.lenW) :
    s.chunkWords j len = (List.range len).map fun i =>
      { kind := .byte, last := decide (i + 1 = len)
        data := if (j + i) % 2 = 0 then s.data.read ((j + i) / 2) else s.key.read ((j + i) / 2) } := by
  refine List.map_congr_left fun i hi => ?_
  have hlt := List.mem_range.mp hi
  rw [s.streamByte_of_lt (div_two_lt_of_lt_two_mul (by omega) hn)]
  rfl

/-- Settles O47: at the start of a chunk CF has the whole chunk left to send. -/
theorem chunkSent : Obligations.ChunkSent := by
  intro s len hcst hph ha hcc hn hlegal hmore hlen hroom hres
  have hchunk : 1 ≤ s.params.chunkMax := hlegal.1
  rw [← s.chunkWords_eq (by omega) hn]
  obtain ⟨k, rfl⟩ : ∃ k, len = k + 1 := Nat.exists_eq_add_one.mpr (by omega)
  exact State.SendsChunk.runMove_chunk ⟨hcst, hph, ha, hn, hlegal, by simpa [hcc] using hlen, hroom, hres⟩

end Sys2Proof.Machine
end

section
/-! SUPPORT. What a move leaves of a unit whose session has ended (R286, R231, R258.7): the host and the transport
take words from the unit's output channels, and nothing else changes there. Then the statement about the return from
a close. -/

namespace Sys2Proof.Machine

/-- SE keeps its state, its cause and TS, and words only leave its output channels. -/
structure SE.OnlyDrains (u v : SE) : Prop where
  st : v.st = u.st
  cause : v.cause = u.cause
  ts : v.ts = u.ts
  tx : v.tx <:+ u.tx
  ev : v.ev <:+ u.ev

/-- CF keeps its state, its cause and its counters, words only leave its output channels, and no command is taken. -/
structure CF.OnlyDrains (c d : CF) : Prop where
  cst : d.cst = c.cst
  cause : d.cause = c.cause
  txp : d.txp = c.txp
  cc : d.cc = c.cc
  ntx : d.ntx <:+ c.ntx
  res : d.res <:+ c.res
  ev : d.ev <:+ c.ev
  cmd : c.cmd <+: d.cmd

/-- A unit that has ended only drains. -/
structure TerminalStep (s t : State) : Prop where
  se : s.se.st = .closed → s.se.OnlyDrains t.se
  cf : s.cf.terminal = true → s.cf.OnlyDrains t.cf

/-! ### What the parts of a move leave -/

section Parts
variable {s t : State}

theorem SE.OnlyDrains.refl (u : SE) : u.OnlyDrains u :=
  ⟨rfl, rfl, rfl, List.suffix_rfl, List.suffix_rfl⟩

theorem CF.OnlyDrains.refl (c : CF) : c.OnlyDrains c :=
  ⟨rfl, rfl, rfl, rfl, List.suffix_rfl, List.suffix_rfl, List.suffix_rfl, List.prefix_rfl⟩

theorem SE.OnlyDrains.set_rx (u : SE) (rx : List NetWord) : u.OnlyDrains { u with rx := rx } :=
  { SE.OnlyDrains.refl u with }

theorem CF.OnlyDrains.set_nrx (c : CF) (nrx : List NetWord) : c.OnlyDrains { c with nrx := nrx } :=
  { CF.OnlyDrains.refl c with }

theorem TerminalStep.of_units_eq (hse : t.se = s.se) (hcf : t.cf = s.cf) : TerminalStep s t :=
  ⟨fun _ => hse ▸ .refl _, fun _ => hcf ▸ .refl _⟩

theorem TerminalStep.of_se (hcf : t.cf = s.cf) (hse : s.se.st = .closed → s.se.OnlyDrains t.se) :
    TerminalStep s t :=
  ⟨hse, fun _ => hcf ▸ .refl _⟩

theorem TerminalStep.of_cf (hse : t.se = s.se) (hcf : s.cf.terminal = true → s.cf.OnlyDrains t.cf) :
    TerminalStep s t :=
  ⟨fun _ => hse ▸ .refl _, hcf⟩

theorem TerminalStep.refl (s : State) : TerminalStep s s := .of_units_eq rfl rfl

theorem TerminalStep.setLane (h : TerminalStep s t) (lane : Lane) (l : LaneState) :
    TerminalStep s (t.setLane lane l) :=
  ⟨by simpa using h.se, by simpa using h.cf⟩

/-- A word put into a net input channel. -/
theorem TerminalStep.pushRead (lane : Lane) (w : NetWord) : TerminalStep s (s.pushRead lane w) := by
  cases lane with
  | c2s => exact .of_se rfl fun _ => .set_rx _ _
  | s2c => exact .of_cf rfl fun _ => .set_nrx _ _

/-- A word taken from a net output channel. -/
theorem TerminalStep.setWritten_tail (lane : Lane) :
    TerminalStep s (s.setWritten lane (s.written lane).tail) := by
  cases lane with
  | c2s => exact .of_cf rfl fun _ => { CF.OnlyDrains.refl s.cf with ntx := List.tail_suffix _ }
  | s2c => exact .of_se rfl fun _ => { SE.OnlyDrains.refl s.se with tx := List.tail_suffix _ }

end Parts

/-! ### The moves of the units -/

section Units
variable {s t : State}

/-- A terminal CF discards the word (R252). -/
theorem CF.TakesNet.eq_of_terminal {c d : CF} {w : NetWord} (h : CF.TakesNet c w d)
    (hterminal : c.terminal = true) : d = c := by
  cases h with
  | discards => rfl
  | accepts hcst | rejects _ hcst | receives hcst | completes hcst | fails _ hcst =>
    simp [CF.terminal, hcst] at hterminal

theorem doMove_se_terminalStep (h : doMove .se s = .next t) : TerminalStep s t := by
  cases hw : s.se.rx with
  | nil => cases (doMove_se_empty hw).symm.trans h; exact .refl s
  | cons w rest =>
    rcases doMove_se_seStep hw h with rfl | ⟨v, htakes, -, rfl⟩
    · exact .refl _
    · refine .of_se rfl fun hclosed => ?_
      rw [htakes.eq_of_closed hclosed]
      exact .set_rx _ _

theorem doMove_cfNet_terminalStep (h : doMove .cfNet s = .next t) : TerminalStep s t := by
  cases hw : s.cf.nrx with
  | nil => cases (doMove_cfNet_empty hw).symm.trans h; exact .refl s
  | cons w rest =>
    rcases doMove_cfNet_cfNetStep hw h with rfl | ⟨d, htakes, -, rfl⟩
    · exact .refl _
    · refine .of_cf rfl fun hterminal => ?_
      rw [htakes.eq_of_terminal hterminal]
      exact .set_nrx _ _

theorem doMove_cfCommand_terminalStep (h : doMove .cfCommand s = .next t) : TerminalStep s t := by
  cases hw : s.cf.cmd with
  | nil => cases (doMove_cfCommand_empty hw).symm.trans h; exact .refl s
  | cons w rest =>
    rcases doMove_cfCommand_cfCommandStep hw h with rfl | ⟨d, htakes, -, rfl⟩
    · exact .refl _
    · obtain ⟨hidle, -⟩ := htakes.cst
      exact .of_cf rfl fun hterminal => absurd hterminal (CF.not_terminal (.inl hidle))

theorem doMove_cfInternal_terminalStep (h : doMove .cfInternal s = .next t) : TerminalStep s t := by
  rcases doMove_cfInternal_cases h with rfl | ⟨d, hsends, -, -, rfl⟩
  · exact .refl _
  · obtain ⟨hstream, -⟩ := hsends.cst
    exact .of_cf rfl fun hterminal => absurd hterminal (CF.not_terminal (.inr (.inr hstream)))

/-- POL_ILLEGAL leaves a CLOSED SE its state and its channels (R286). -/
theorem execPolIllegal_terminalStep (h : execPolIllegal s = .next t) : TerminalStep s t := by
  refine .of_se (execPolIllegal_cf h) fun hclosed => ?_
  cases (execPolIllegal_closed hclosed).symm.trans h
  exact { SE.OnlyDrains.refl s.se with }

/-- An instruction of the combinational units and of the policy register. -/
theorem exec_nets_terminalStep {i : Instr} (h : exec i s = .next t)
    (hi : inputOf i = .nets ∨ inputOf i = .policyRegister) : TerminalStep s t := by
  have hop := exec_operation i s
  rcases hi with hi | hi <;> rw [hi] at hop
  · cases hop with
    | nets hexec => cases hexec.symm.trans h; exact .of_units_eq rfl rfl
  · cases hop with
    | policyRegister hexec => exact execPolIllegal_terminalStep (hexec ▸ h)

/-- What is presented to a combinational unit stands on the nets alone. -/
theorem TerminalStep.of_present {m : Move} (h : TerminalStep (present m s) t) : TerminalStep s t :=
  ⟨by simpa using h.se, by simpa using h.cf⟩

theorem unitStep_nets_terminalStep {m : Move} (h : unitStep m s = .next t)
    (hnets : ∀ v i, presented m s = some v → encode i = v →
      inputOf i = .nets ∨ inputOf i = .policyRegister) : TerminalStep s t := by
  rcases unitStep_cases h with rfl | ⟨v, i, hv, hd, he⟩
  · exact .refl _
  · obtain ⟨-, hword⟩ := isWordOf_of_decode hd
    exact .of_present (exec_nets_terminalStep he (hnets v i hv hword))

theorem doMove_alpha_terminalStep {b : Byte} (h : doMove (.alpha b) s = .next t) : TerminalStep s t :=
  unitStep_nets_terminalStep (m := .alpha b) h fun _ _ hv hword =>
    .inl (inputOf_of_byte (hword.trans (Option.some.inj hv).symm))

theorem doMove_xform_terminalStep {d k : Fin 27} (h : doMove (.xform d k) s = .next t) :
    TerminalStep s t :=
  unitStep_nets_terminalStep (m := .xform d k) h fun _ _ hv hword =>
    .inl (inputOf_of_cfgDir (hword.trans (Option.some.inj hv).symm))

theorem doMove_policy_terminalStep {db kb : Byte} (h : doMove (.policy db kb) s = .next t) :
    TerminalStep s t :=
  unitStep_nets_terminalStep (m := .policy db kb) h fun _ _ hv hword =>
    inputOf_of_cfgPol (hword.trans (Option.some.inj hv).symm)

end Units

/-! ### The moves of the host -/

section Host
variable (s : State) (lane : Lane)

theorem carry_terminalStep : TerminalStep s (carry lane s) := by
  rcases carry_cases lane s with h | ⟨w, rest, hw, -, -, hmoved⟩
  · rw [h]; exact .refl s
  · have hrest : rest = (s.written lane).tail := by rw [hw]; rfl
    rcases hmoved with ⟨-, h⟩ | ⟨-, h⟩ <;> rw [h, hrest] <;>
      exact (TerminalStep.setWritten_tail lane).setLane ..

theorem deliver_terminalStep (last : Bool) : TerminalStep s (deliver lane last s) := by
  rcases deliver_cases lane s last with h | ⟨b, rest, -, -, -, -, h⟩ <;> rw [h]
  · exact .refl s
  · exact (TerminalStep.pushRead lane _).setLane ..

theorem deliverEof_terminalStep : TerminalStep s (deliverEof lane s) := by
  rcases deliverEof_cases lane s with h | ⟨-, -, -, -, h⟩ <;> rw [h]
  · exact .refl s
  · exact (TerminalStep.pushRead lane _).setLane ..

theorem deliverErr_terminalStep : TerminalStep s (deliverErr lane s) := by
  rcases deliverErr_cases lane s with h | ⟨-, h⟩ <;> rw [h]
  · exact .refl s
  · exact (TerminalStep.pushRead lane _).setLane ..

theorem dropWord_terminalStep : TerminalStep s (dropWord lane s) := by
  rcases dropWord_cases lane s with h | ⟨-, ⟨b, rest, -, h⟩ | ⟨-, -, h⟩⟩ <;> rw [h]
  · exact .refl s
  · exact (TerminalStep.refl s).setLane ..
  · exact .setWritten_tail lane

theorem connect_terminalStep : TerminalStep s (connect s) := by
  rcases connect_cases s with h | ⟨-, h⟩ <;> rw [h] <;> exact .of_units_eq rfl rfl

theorem benchPut_terminalStep (w : NetWord) : TerminalStep s (benchPut lane w s) := by
  rcases benchPut_cases lane s w with h | ⟨-, h⟩ <;> rw [h]
  · exact .refl s
  · exact .pushRead lane w

theorem benchTake_terminalStep : TerminalStep s (benchTake lane s) := by
  rcases benchTake_cases lane s with h | ⟨-, h⟩ <;> rw [h]
  · exact .refl s
  · exact .setWritten_tail lane

theorem sendCommand_terminalStep (bits : Nat) : TerminalStep s (sendCommand bits s) := by
  rcases sendCommand_cases s bits with h | ⟨w, -, -, h⟩ <;> rw [h]
  · exact .refl s
  · exact .of_cf rfl fun _ => { CF.OnlyDrains.refl s.cf with cmd := List.prefix_append _ _ }

theorem place_terminalStep {s t : State} {space : Space} {addr : Nat} {b : Byte}
    (h : place space addr b s = .next t) : TerminalStep s t := by
  obtain ⟨-, -, rfl⟩ := place_cases h
  cases space <;> exact .of_units_eq rfl rfl

end Host

/-! ### All moves -/

/-- Every move but the two reset steps. -/
theorem doMove_terminalStep {s t : State} {m : Move} (h : doMove m s = .next t) (hse : m ≠ .resetSe)
    (hcf : m ≠ .resetCf) : TerminalStep s t := by
  cases m with
  | se => exact doMove_se_terminalStep h
  | cfCommand => exact doMove_cfCommand_terminalStep h
  | cfNet => exact doMove_cfNet_terminalStep h
  | cfInternal => exact doMove_cfInternal_terminalStep h
  | alpha => exact doMove_alpha_terminalStep h
  | xform => exact doMove_xform_terminalStep h
  | policy => exact doMove_policy_terminalStep h
  | resetSe => exact absurd rfl hse
  | resetCf => exact absurd rfl hcf
  | place => exact place_terminalStep h
  | pass | setSePorts | setCfPorts => cases h; exact .of_units_eq rfl rfl
  | takeRes =>
    cases h
    exact .of_cf rfl fun _ => { CF.OnlyDrains.refl s.cf with res := List.tail_suffix _ }
  | takeSeEv =>
    cases h
    exact .of_se rfl fun _ => { SE.OnlyDrains.refl s.se with ev := List.tail_suffix _ }
  | takeCfEv =>
    cases h
    exact .of_cf rfl fun _ => { CF.OnlyDrains.refl s.cf with ev := List.tail_suffix _ }
  | command bits => cases h; exact sendCommand_terminalStep s bits
  | connect => cases h; exact connect_terminalStep s
  | carry lane => cases h; exact carry_terminalStep s lane
  | deliver lane last => cases h; exact deliver_terminalStep s lane last
  | deliverEof lane => cases h; exact deliverEof_terminalStep s lane
  | deliverErr lane => cases h; exact deliverErr_terminalStep s lane
  | drop lane => cases h; exact dropWord_terminalStep s lane
  | benchRx w => cases h; exact benchPut_terminalStep s .c2s w
  | benchNrx w => cases h; exact benchPut_terminalStep s .s2c w
  | benchTx => cases h; exact benchTake_terminalStep s .s2c
  | benchNtx => cases h; exact benchTake_terminalStep s .c2s

/-- CF's reset step does not touch SE. -/
theorem doMove_se_onlyDrains {s t : State} {m : Move} (h : doMove m s = .next t)
    (hclosed : s.se.st = .closed) (hse : m ≠ .resetSe) : s.se.OnlyDrains t.se := by
  by_cases hcf : m = .resetCf
  · subst hcf; cases h; rw [resetCf_se]; exact .refl _
  · exact (doMove_terminalStep h hse hcf).se hclosed

/-- SE's reset step does not touch CF. -/
theorem doMove_cf_onlyDrains {s t : State} {m : Move} (h : doMove m s = .next t)
    (hterminal : s.cf.terminal = true) (hcf : m ≠ .resetCf) : s.cf.OnlyDrains t.cf := by
  by_cases hse : m = .resetSe
  · subst hse; cases h; rw [resetSe_cf]; exact .refl _
  · exact (doMove_terminalStep h hse hcf).cf hterminal

/-- Settles O40: whatever the move, a unit that has ended only drains until its own reset step. -/
theorem noReturnFromClose : Obligations.NoReturnFromClose := by
  refine fun s t m h => ⟨fun hclosed hm => ?_, fun hterminal hm => ?_⟩
  · obtain ⟨hst, hcause, hts, htx, hev⟩ := doMove_se_onlyDrains h hclosed hm
    exact ⟨hst.trans hclosed, hcause, hts, htx, hev⟩
  · obtain ⟨hcst, hcause, htxp, hcc, hntx, hres, hev, hcmd⟩ := doMove_cf_onlyDrains h hterminal hm
    exact ⟨hcst, hcause, htxp, hcc, hntx, hres, hev, hcmd⟩

end Sys2Proof.Machine
end

section
/-! SUPPORT. The invariant right after reset, and the two hangs of a stream (R321, R322). -/

namespace Sys2Proof.Machine

/-- Settles O57: `State.reset` is a state right after reset, with the reference parameters. -/
theorem resetMeetsInvariant : Obligations.ResetMeetsInvariant :=
  inv_of_reset (by decide) false []

/-! ### The moves of a stream that hold (R89, R132, R253) -/

section Holds
variable {s : State}

/-- An SE that is not ready holds, with or without a word waiting (R89). -/
theorem doMove_se_of_not_ready (hst : s.se.st ≠ .reserved) (h : seRxReady s = false) :
    doMove .se s = .next s := by
  cases hw : s.se.rx with
  | nil => exact doMove_se_empty hw
  | cons w rest => exact (serverTakesWhenReady s w rest hw).2 h hst

/-- Outside IDLE no command moves CF (R253). -/
theorem doMove_cfCommand_of_stream (hcst : s.cf.cst = .stream) : doMove .cfCommand s = .next s := by
  obtain ⟨hcommand, -⟩ := clientHolds s
  cases hw : s.cf.cmd with
  | nil => exact doMove_cfCommand_empty hw
  | cons w rest => exact (hcommand w rest hw (.inr (.inl hcst))).2

/-- In the send phase no net word moves CF (R253). -/
theorem doMove_cfNet_of_send (hcst : s.cf.cst = .stream) (hph : s.cf.ph = false) :
    doMove .cfNet s = .next s := by
  obtain ⟨-, hnet, -⟩ := clientHolds s
  cases hw : s.cf.nrx with
  | nil => exact doMove_cfNet_empty hw
  | cons w rest => exact (hnet w rest hw hcst hph).2

/-- In its read CF makes no internal step (R132). -/
theorem doMove_cfInternal_of_read (hph : s.cf.ph = true) : doMove .cfInternal s = .next s := by
  obtain ⟨-, -, -, hinternal⟩ := clientHolds s
  exact hinternal (.inr hph)

/-- With `CF.ntx` full it makes none either (R89). -/
theorem doMove_cfInternal_of_full (h : s.params.obuf ≤ s.cf.ntx.length) :
    doMove .cfInternal s = .next s := by
  obtain ⟨-, -, hinternal⟩ := clientTakesWhenReady
  obtain ⟨-, -, hfull, -⟩ := hinternal s
  exact (hfull h).2

variable {lane : Lane}

theorem carry_of_written_nil (h : s.written lane = []) : carry lane s = s := by
  simp [carry, h]

theorem deliver_of_buf_nil {last : Bool} (h : (s.lane lane).buf = []) : deliver lane last s = s := by
  simp [deliver, h]

/-- In an open stream neither reader has closed (R96). -/
theorem readerClosed_of_open_stream (hst : s.se.st = .active) (hcst : s.cf.cst = .stream)
    (hc2s : s.link.c2s.closed = false) (hs2c : s.link.s2c.closed = false) (lane : Lane) :
    s.readerClosed lane = false := by
  cases lane <;> simp [State.readerClosed, *]

end Holds

/-! ### The two hangs -/

/-- A stream in which no unit, and neither direction of the transport but for its end, can move. -/
structure State.Hangs (s : State) : Prop where
  se : doMove .se s = .next s
  cfCommand : doMove .cfCommand s = .next s
  cfNet : doMove .cfNet s = .next s
  cfInternal : doMove .cfInternal s = .next s
  carry : ∀ lane, carry lane s = s
  deliver : ∀ lane last, deliver lane last s = s

section Hangs
variable {s : State} (hcst : s.cf.cst = .stream)
include hcst

/-- R321: CF waits in its read, SE waits for a word, and there is nothing between them. -/
theorem hangs_of_empty (hph : s.cf.ph = true) (hnrx : s.cf.nrx = []) (hrx : s.se.rx = [])
    (hwritten : ∀ lane, s.written lane = []) (hbuf : ∀ lane, (s.lane lane).buf = []) : s.Hangs where
  se := doMove_se_empty hrx
  cfCommand := doMove_cfCommand_of_stream hcst
  cfNet := doMove_cfNet_empty hnrx
  cfInternal := doMove_cfInternal_of_read hph
  carry lane := carry_of_written_nil (hwritten lane)
  deliver lane _ := deliver_of_buf_nil (hbuf lane)

/-- R322: CF waits for room to send, SE for room to answer, and both directions are full. -/
theorem hangs_of_full (hst : s.se.st = .active) (hph : s.cf.ph = false) (hntx : s.params.obuf ≤ s.cf.ntx.length)
    (hready : seRxReady s = false) (hfull : ∀ lane, s.full lane = true)
    (hreader : ∀ lane, s.readerFull lane = true) : s.Hangs where
  se := doMove_se_of_not_ready (by simp [hst]) hready
  cfCommand := doMove_cfCommand_of_stream hcst
  cfNet := doMove_cfNet_of_send hcst hph
  cfInternal := doMove_cfInternal_of_full hntx
  carry lane := carry_full (hfull lane)
  deliver lane _ := deliver_disabled (.inr (.inl (hreader lane)))

end Hangs

/-- Settles O52: in either hang the units and the transport hold, and an open direction has no end to deliver and
nothing to drop. -/
theorem alternationHang : Obligations.AlternationHang := by
  intro s hcst hst hc2s hs2c hcase m hm
  have hhangs : s.Hangs := by
    rcases hcase with ⟨hph, hnrx, hntx, hrx, htx, hc2sBuf, hs2cBuf⟩ | ⟨hph, hntx, hready, hlanes⟩
    · exact hangs_of_empty hcst hph hnrx hrx (fun lane => by cases lane <;> assumption)
        (fun lane => by cases lane <;> assumption)
    · refine hangs_of_full hcst hst hph hntx hready (fun lane => ?_) (fun lane => ?_) <;>
        obtain ⟨k, r, hk, hheld, hr, hwaiting⟩ := hlanes lane
      · exact (s.full_eq_true_iff lane).mpr ⟨k, hk, hheld⟩
      · simp [State.readerFull, hr, hwaiting]
  rcases hm with rfl | rfl | rfl | rfl | ⟨lane, rfl | rfl | rfl | rfl | rfl⟩
  · exact hhangs.se
  · exact hhangs.cfCommand
  · exact hhangs.cfNet
  · exact hhangs.cfInternal
  · exact congrArg _ (hhangs.carry lane)
  · exact congrArg _ (hhangs.deliver lane true)
  · exact congrArg _ (hhangs.deliver lane false)
  · exact congrArg _ (deliverEof_disabled (.inl (by cases lane <;> assumption)))
  · exact congrArg _ (dropWord_open (readerClosed_of_open_stream hst hcst hc2s hs2c lane))

end Sys2Proof.Machine
end

section
/-! SUPPORT. What R320's argument sees of a state, the terms of a session, what stands on its wires, and its
phases, from the START to the end of the stream. -/

namespace Sys2Proof.Machine

/-! ### What the argument sees of a state -/

/-- A state without what no step of a session waits for: the events, the commands behind the START, the nets, the
ports, the buffers and the script. -/
def State.core (s : State) : State :=
  { s with
    se := { s.se with ev := [] }
    cf := { s.cf with ev := [], cmd := [] }
    comb := Comb.afterReset, data := [], key := []
    sePorts := State.reset.sePorts, cfPorts := State.reset.cfPorts, script := [] }

/-- SE without its channels. -/
def SE.regs (u : SE) : SE := { u with rx := [], tx := [], ev := [] }

/-- CF without its channels. -/
def CF.regs (c : CF) : CF := { c with cmd := [], nrx := [], ntx := [], res := [], ev := [] }

theorem SE.regs_eq_iff (u v : SE) :
    u.regs = v.regs ↔ u.st = v.st ∧ u.cv = v.cv ∧ u.cb = v.cb ∧ u.ts = v.ts ∧ u.cause = v.cause ∧
      u.sent = v.sent ∧ u.dir = v.dir ∧ u.pol = v.pol ∧ u.cfgOk = v.cfgOk := by
  simp [SE.regs]

theorem CF.regs_eq_iff (c d : CF) :
    c.regs = d.regs ↔ c.cst = d.cst ∧ c.ph = d.ph ∧ c.allSent = d.allSent ∧ c.n = d.n ∧ c.m = d.m ∧
      c.txp = d.txp ∧ c.cc = d.cc ∧ c.cause = d.cause ∧ c.sent = d.sent ∧ c.cfgOk = d.cfgOk := by
  simp [CF.regs]

/-- The ends of a session that R320 names. -/
def State.Ended (s : State) : Prop :=
  s.cf.cst = .done ∨ (s.se.pol = .abort ∧ s.cf.cst = .fail)

/-- What R320 assumes of the configuration, and no move of a session changes. -/
structure State.Terms (n : Nat) (s : State) : Prop where
  sentinel : s.se.sent = s.cf.sent
  legal : s.se.cfgOk = true
  chunk : 2 ≤ s.params.chunkMax
  room : ∀ k, s.netBuf .s2c = some k → n + 1 ≤ k
  host : s.bench = false

/-- The words of `CF.nrx`: bytes, and behind them the EOF once it has come. A last byte without LAST leaves the read
open (R93). -/
structure State.Reads (s : State) (ws : List NetWord) : Prop where
  nrx : s.cf.nrx = ws ++ if s.link.s2c.ended then [eofWord] else []
  bytes : ∀ w ∈ ws, w.kind = .byte
  unfinished : ∀ w, ws.getLast? = some w → w.last = false → s.link.s2c.chunkLen ≠ 0

/-- What stands on the wires while CF's session runs: CF has not closed, so only bytes go to SE; and SE's close
follows its last byte, first as a CLOSE in `SE.tx`, then as a closed direction, then as an EOF (R94, R115). -/
structure State.Wires (s : State) : Prop where
  c2s_open : s.link.c2s.closed = false
  c2s_runs : s.link.c2s.ended = false
  c2s_kept : s.link.c2s.writerReset = false
  rx_bytes : ∀ w ∈ s.se.rx, w.kind = .byte
  reads : ∃ ws, s.Reads ws
  ended_closed : s.link.s2c.ended = true → s.link.s2c.closed = true ∧ s.link.s2c.buf = []
  closed_written : s.link.s2c.closed = true → s.se.st = .closed ∧ s.se.tx = []
  closing_written : s.se.st = .closed → s.link.s2c.closed = true ∨ closeWord ∈ s.se.tx

/-! ### The phases of a session -/

/-- The replies CF has not read, where `body` is what is on its way to SE of the stream: those SE has written, and one
for each pair that the carry and `body` complete (R180, R182). -/
def State.unread (s : State) (body : List Byte) : Nat :=
  (s.laneBytes .s2c).length + (s.se.cv.toNat + body.length) / 2

/-- CF has read all that was delivered, and the read has no end yet (R93). -/
def State.OpenRead (s : State) : Prop := s.cf.nrx = [] ∧ s.link.s2c.chunkLen ≠ 0

/-- The stream between a CF in STREAM and an ACTIVE SE. R320's argument is in `sends` and `reads`: the replies CF
has not read are at least the pairs that the chunk in hand has completed, so that there is one when the chunk ends,
or the read goes on. -/
structure State.Flows (s : State) (body : List Byte) : Prop where
  sending : s.laneBytes .c2s = body ++ if s.cf.allSent then [s.cf.sent] else []
  parity : (s.se.cv.toNat + body.length) % 2 = s.cf.txp % 2
  bounded : s.unread body ≤ s.cf.txp / 2
  sends : s.cf.ph = false → s.cf.txp / 2 - (s.cf.txp - s.cf.cc.toNat) / 2 ≤ s.unread body
  reads : s.cf.ph = true → s.cf.allSent = false → 1 ≤ s.unread body ∨ s.OpenRead
  chunk_ended : s.cf.ph = true → s.cf.cc = 0
  symbols : s.se.pol = .skip → (s.se.cv = true → IsSymbol s.se.cb) ∧ ∀ b ∈ body, IsSymbol b

/-- A reply written is one unread. -/
theorem State.one_le_unread {s : State} (h : s.laneBytes .s2c ≠ []) (body : List Byte) :
    1 ≤ s.unread body :=
  (List.length_pos_iff.mpr h).trans_le (Nat.le_add_right _ _)

/-- Where a session is: before the START is taken, with the handshake byte on its way to SE, with its echo on its way
back, in the stream, and after SE's close, which the sentinel precedes but under ABORT. -/
inductive State.Phase (s : State) : Prop
  | waits (hcst : s.cf.cst = .idle) (hst : s.se.st = .awaitHs) (hc2s : s.laneBytes .c2s = [])
      (hs2c : s.laneBytes .s2c = [])
  | offers (hcst : s.cf.cst = .hsWait) (hst : s.se.st = .awaitHs)
      (hc2s : s.laneBytes .c2s = [s.cf.sent]) (hs2c : s.laneBytes .s2c = [])
  | echoes (hcst : s.cf.cst = .hsWait) (hst : s.se.st = .active) (hcv : s.se.cv = false)
      (hc2s : s.laneBytes .c2s = []) (hs2c : s.laneBytes .s2c = [s.cf.sent])
  | flows (hcst : s.cf.cst = .stream) (hst : s.se.st = .active) (body : List Byte)
      (hflow : s.Flows body)
  | closes (hcst : s.cf.cst = .stream) (hst : s.se.st = .closed)
      (hend : s.se.pol = .abort ∨ s.cf.sent ∈ s.laneBytes .s2c)

/-- A session of `n` data bytes that has not ended. -/
structure State.Live (n : Nat) (s : State) : Prop where
  inv : s.Inv
  command : s.cf.cst = .idle →
    ∃ m rest, n ≤ m ∧ s.cf.cmd = { op := opStart, n := n, m := m } :: rest
  length : s.cf.cst ≠ .idle → s.cf.n = n
  terms : s.Terms n
  wires : s.Wires
  phase : s.Phase

/-! ### What depends on the core alone -/

section Core
variable {s t : State} {n : Nat}

theorem State.core_wires : s.core.Wires ↔ s.Wires := by
  constructor <;> rintro ⟨h1, h2, h3, h4, ⟨ws, h⟩, h6, h7, h8⟩ <;>
    exact ⟨h1, h2, h3, h4, ⟨ws, { h with }⟩, h6, h7, h8⟩

theorem State.core_phase : s.core.Phase ↔ s.Phase := by
  constructor <;> intro h
  all_goals
    cases h with
    | waits hcst hst hc2s hs2c => exact .waits hcst hst hc2s hs2c
    | offers hcst hst hc2s hs2c => exact .offers hcst hst hc2s hs2c
    | echoes hcst hst hcv hc2s hs2c => exact .echoes hcst hst hcv hc2s hs2c
    | flows hcst hst body hflow => exact .flows hcst hst body { hflow with }
    | closes hcst hst hend => exact .closes hcst hst hend

theorem State.Wires.of_core (h : s.Wires) (hcore : t.core = s.core) : t.Wires :=
  State.core_wires.mp (hcore ▸ State.core_wires.mpr h)

theorem State.Phase.of_core (h : s.Phase) (hcore : t.core = s.core) : t.Phase :=
  State.core_phase.mp (hcore ▸ State.core_phase.mpr h)

end Core

/-! ### What the phases say of the units -/

section Facts
variable {n : Nat} {s : State}

/-- A session that has not ended has a CF that is in no terminal state. -/
theorem State.Phase.not_terminal (h : s.Phase) : ¬s.cf.terminal = true := by
  cases h with
  | waits hcst => exact CF.not_terminal (.inl hcst)
  | offers hcst | echoes hcst => exact CF.not_terminal (.inr (.inl hcst))
  | flows hcst | closes hcst => exact CF.not_terminal (.inr (.inr hcst))

/-- Before its end CF has written bytes alone (R258.6). -/
theorem State.Live.ntx_bytes (h : s.Live n) : ∀ w ∈ s.cf.ntx, w.kind = .byte := by
  intro w hw
  have hword := h.inv.cf.ntx_words w hw
  rw [emittedWord, Bool.or_eq_true, beq_iff_eq, beq_iff_eq] at hword
  refine hword.resolve_right fun hclose => ?_
  exact h.phase.not_terminal (h.inv.cf.ntx_close_terminal w hw (by rw [hclose]; rfl))

/-- Before its close SE has written bytes alone (R228.5). -/
theorem State.Live.tx_bytes (h : s.Live n) (hopen : s.se.st ≠ .closed) : ∀ w ∈ s.se.tx, w.kind = .byte := by
  intro w hw
  have hword := h.inv.se.tx_words w hw
  rw [emittedWord, Bool.or_eq_true, beq_iff_eq, beq_iff_eq] at hword
  refine hword.resolve_right fun hclose => ?_
  exact hopen (h.inv.se.tx_close_closed w hw (by rw [hclose]; rfl))

/-- An SE that has not closed has ended no direction. -/
theorem State.Wires.s2c_open (h : s.Wires) (hopen : s.se.st ≠ .closed) :
    s.link.s2c.closed = false ∧ s.link.s2c.ended = false := by
  have hclosed : s.link.s2c.closed = false :=
    Bool.eq_false_iff.mpr fun hc => hopen (h.closed_written hc).1
  refine ⟨hclosed, Bool.eq_false_iff.mpr fun he => ?_⟩
  cases hclosed.symm.trans (h.ended_closed he).1

/-- No side of a live session has closed as a reader but an SE in CLOSED (R96). -/
theorem State.Live.readerClosed_s2c (h : s.Live n) : s.readerClosed .s2c = false := by
  have hopen := h.phase.not_terminal
  rw [CF.terminal_iff, not_or] at hopen
  simp [State.readerClosed, h.wires.c2s_open, hopen.1, hopen.2]

theorem State.Live.readerClosed_c2s (h : s.Live n) (hclosed : s.readerClosed .c2s = true) :
    s.se.st = .closed := by
  rw [State.readerClosed, Bool.or_eq_true, beq_iff_eq] at hclosed
  exact hclosed.elim id fun hc => (h.wires.closed_written hc).1

/-- The policy of a legal configuration (R220). -/
theorem State.Live.policy_legal (h : s.Live n) : s.se.pol ≠ .illegal := by
  have hlegal := h.inv.se.config.symm.trans h.terms.legal
  exact ((seCfgLegal_iff _ _).mp hlegal).2.1

/-- A CLOSED SE has the CF of a stream before it. -/
theorem State.Phase.of_closed (h : s.Phase) (hst : s.se.st = .closed) :
    s.cf.cst = .stream ∧ (s.se.pol = .abort ∨ s.cf.sent ∈ s.laneBytes .s2c) := by
  cases h with
  | closes hcst _ hend => exact ⟨hcst, hend⟩
  | waits _ hst' | offers _ hst' | echoes _ hst' | flows _ hst' => cases hst.symm.trans hst'

/-- Where the bytes of a channel are all its words, a channel without bytes is empty. -/
theorem eq_nil_of_byteData {ws : List NetWord} (hbytes : ∀ w ∈ ws, w.kind = .byte)
    (h : byteData ws = []) : ws = [] := by
  cases ws with
  | nil => rfl
  | cons w rest =>
    rw [byteData_cons_byte rest (hbytes w List.mem_cons_self)] at h
    cases h

theorem length_byteData_of_bytes {ws : List NetWord} (hbytes : ∀ w ∈ ws, w.kind = .byte) :
    (byteData ws).length = ws.length := by
  have hall : ws.filter (fun w => w.kind == .byte) = ws :=
    List.filter_eq_self.mpr fun w hw => beq_iff_eq.mpr (hbytes w hw)
  rw [byteData, hall, List.length_map]

end Facts

end Sys2Proof.Machine
end

section
/-! SUPPORT. The work left of a session, and what each move does to a live session: nothing that R320's argument
sees, or it goes on with less work left, or it ends. -/

namespace Sys2Proof.Machine

/-! ### The work left -/

/-- The words CF has still to write before its session ends (R240, R245, R246). -/
def CF.sendsLeft (n : Nat) (c : CF) : Nat :=
  match c.cst with
  | .idle => 2 * n + 2
  | .hsWait => 2 * n + 1
  | .stream => 2 * n - c.txp + if c.allSent then 0 else 1
  | _ => 0

/-- What the words in the channels and the transport weigh: each counts with the steps still before it, and SE may
answer a word with two. -/
def State.held (s : State) : Nat :=
  11 * s.cf.ntx.length + 10 * s.link.c2s.buf.length + 9 * s.se.rx.length + 4 * s.se.tx.length +
    3 * s.link.s2c.buf.length + 3 * (!s.link.s2c.ended).toNat + 2 * s.cf.nrx.length + s.cf.res.length

/-- The work left: the words that CF has still to write, and those on their way. -/
def State.work (n : Nat) (s : State) : Nat := 12 * s.cf.sendsLeft n + s.held

theorem CF.sendsLeft_eq (n : Nat) {c d : CF} (h : d.regs = c.regs) : d.sendsLeft n = c.sendsLeft n := by
  obtain ⟨hcst, -, ha, -, -, htxp, -⟩ := (CF.regs_eq_iff _ _).mp h
  rw [CF.sendsLeft, hcst, ha, htxp]
  rfl

theorem State.work_lt {n : Nat} {s t : State} (hcf : t.cf.regs = s.cf.regs) (hheld : t.held < s.held) :
    t.work n < s.work n := by
  rw [State.work, State.work, CF.sendsLeft_eq n hcf]
  exact Nat.add_lt_add_left hheld _

/-- A step that ends the session, or leaves it live with less work. -/
def Advances (n : Nat) (s t : State) : Prop := t.Ended ∨ (t.Live n ∧ t.work n < s.work n)

/-! ### What no move changes -/

section Kept
variable {s t : State} {m : Move} {n : Nat}

theorem State.Terms.step (h : s.Terms n) (hinv : s.Inv) (hmove : doMove m s = .next t)
    (hreset : m ≠ .resetSe ∧ m ≠ .resetCf) (hparams : t.params = s.params) (hbench : t.bench = s.bench) :
    t.Terms n := by
  obtain ⟨hsent, -, -, hlegal⟩ :=
    (SE.configRegs_eq_iff _ _).mp (doMove_se_configRegs hmove hinv.se hreset.1)
  obtain ⟨hcfSent, -⟩ := (CF.configRegs_eq_iff _ _).mp (doMove_cf_configRegs hmove hreset.2)
  exact ⟨by rw [hsent, hcfSent, h.sentinel], by rw [hlegal, h.legal], hparams ▸ h.chunk,
    fun k hk => h.room k ((State.netBuf_congr hparams _).symm.trans hk), hbench ▸ h.host⟩

/-- A move in a live session that leaves the parameters as they are: what is left to show of the state it leads to. -/
theorem State.Live.step (h : s.Live n) (hmove : doMove m s = .next t)
    (hreset : m ≠ .resetSe ∧ m ≠ .resetCf) (hparams : t.params = s.params) (hbench : t.bench = s.bench)
    (hcommand : t.cf.cst = .idle → s.cf.cst = .idle ∧ s.cf.cmd <+: t.cf.cmd)
    (hlength : t.cf.cst ≠ .idle → t.cf.n = n) (hwires : t.Wires) (hphase : t.Phase) : t.Live n where
  inv := doMove_inv h.inv hmove
  command hidle := by
    obtain ⟨hcst, more, hmore⟩ := hcommand hidle
    obtain ⟨m, rest, hm, hcmd⟩ := h.command hcst
    exact ⟨m, rest ++ more, hm, by rw [← hmore, hcmd]; rfl⟩
  length := hlength
  terms := h.terms.step h.inv hmove hreset hparams hbench
  wires := hwires
  phase := hphase

/-- A move that the argument does not see. -/
theorem State.Live.of_core (h : s.Live n) (hmove : doMove m s = .next t)
    (hreset : m ≠ .resetSe ∧ m ≠ .resetCf) (hcore : t.core = s.core)
    (hcommand : s.cf.cmd <+: t.cf.cmd) : t.Live n := by
  have hcst : t.cf.cst = s.cf.cst := show t.core.cf.cst = s.core.cf.cst by rw [hcore]
  have hn : t.cf.n = s.cf.n := show t.core.cf.n = s.core.cf.n by rw [hcore]
  have hparams : t.params = s.params := show t.core.params = s.core.params by rw [hcore]
  have hbench : t.bench = s.bench := show t.core.bench = s.core.bench by rw [hcore]
  exact h.step hmove hreset hparams hbench
    (fun hidle => ⟨hcst ▸ hidle, hcommand⟩) (fun hidle => hn.trans (h.length (hcst ▸ hidle)))
    (h.wires.of_core hcore) (h.phase.of_core hcore)

/-- The phase of a session is one of its registers and of the bytes between its units, and of the read that CF waits
in, while there is nothing for it to read. -/
theorem State.Phase.of_laneBytes (h : s.Phase) (hse : t.se.regs = s.se.regs) (hcf : t.cf.regs = s.cf.regs)
    (hbytes : ∀ lane, t.laneBytes lane = s.laneBytes lane)
    (hread : s.se.st = .active → s.laneBytes .s2c = [] → s.OpenRead → t.OpenRead) : t.Phase := by
  obtain ⟨hst, hcv, hcb, -, -, -, -, hpol, -⟩ := (SE.regs_eq_iff _ _).mp hse
  obtain ⟨hcst, hph, ha, -, -, htxp, hcc, -, hsent, -⟩ := (CF.regs_eq_iff _ _).mp hcf
  have hunread : ∀ body, t.unread body = s.unread body := fun body => by
    rw [State.unread, State.unread, hbytes, hcv]
  cases h with
  | waits hidle hwait hc2s hs2c =>
    exact .waits (hcst ▸ hidle) (hst ▸ hwait) (hbytes _ ▸ hc2s) (hbytes _ ▸ hs2c)
  | offers hhs hwait hc2s hs2c =>
    exact .offers (hcst ▸ hhs) (hst ▸ hwait) (by rw [hbytes, hsent, hc2s]) (hbytes _ ▸ hs2c)
  | echoes hhs hactive hcarry hc2s hs2c =>
    exact .echoes (hcst ▸ hhs) (hst ▸ hactive) (hcv ▸ hcarry) (hbytes _ ▸ hc2s)
      (by rw [hbytes, hsent, hs2c])
  | flows hstream hactive body hflow =>
    refine .flows (hcst ▸ hstream) (hst ▸ hactive) body
      ⟨by rw [hbytes, ha, hsent, hflow.sending], by rw [hcv, htxp, hflow.parity],
        by rw [hunread, htxp]; exact hflow.bounded, ?_, fun hph' ha' => ?_, ?_, ?_⟩
    · rw [hunread, hph, htxp, hcc]; exact hflow.sends
    · rw [hph] at hph'
      rw [ha] at ha'
      rw [hunread]
      by_cases hnone : s.laneBytes .s2c = []
      · exact (hflow.reads hph' ha').imp_right (hread hactive hnone)
      · exact .inl (State.one_le_unread hnone body)
    · rw [hph, hcc]; exact hflow.chunk_ended
    · rw [hpol, hcv, hcb]; exact hflow.symbols
  | closes hstream hclosed hend =>
    exact .closes (hcst ▸ hstream) (hst ▸ hclosed) (by rw [hpol, hsent, hbytes]; exact hend)

end Kept

end Sys2Proof.Machine
end

section
/-! SUPPORT. The moves of the transport in a live session: each that has an effect leaves less work. -/

namespace Sys2Proof.Machine

/-! ### Reads -/

section Reads
variable {s : State} {ws : List NetWord}

/-- A byte delivered to CF (R92, R93). -/
theorem State.Reads.deliver (h : s.Reads ws) (hended : s.link.s2c.ended = false) {t : State} {b : Byte}
    {last : Bool} (htended : t.link.s2c.ended = false) (hnrx : t.cf.nrx = s.cf.nrx ++ [byteWord last b])
    (hread : last = false → t.link.s2c.chunkLen ≠ 0) : t.Reads (ws ++ [byteWord last b]) where
  nrx := by rw [hnrx, h.nrx, hended, htended]; simp
  bytes := List.forall_mem_append.mpr ⟨h.bytes, List.forall_mem_singleton.mpr rfl⟩
  unfinished w hw hlast := by
    obtain rfl : byteWord last b = w := by simpa using hw
    exact hread hlast

end Reads

/-- Of an empty channel there is nothing to take. -/
theorem State.setWritten_tail_of_nil {s : State} {lane : Lane} (h : s.written lane = []) :
    s.setWritten lane (s.written lane).tail = s := by
  have htail : (s.written lane).tail = s.written lane := by rw [h]; rfl
  rw [htail]
  cases lane <;> rfl

/-! ### The moves of the transport -/

section Transport
variable {n : Nat} {s : State} (h : s.Live n)
include h

/-- What is left to show of a move of the transport with an effect that keeps the bytes of both directions. -/
theorem State.Live.transport {m : Move} {t : State} (hmove : doMove m s = .next t)
    (hreset : m ≠ .resetSe ∧ m ≠ .resetCf) (hparams : t.params = s.params) (hbench : t.bench = s.bench)
    (hse : t.se.regs = s.se.regs) (hcf : t.cf.regs = s.cf.regs) (hcmd : t.cf.cmd = s.cf.cmd)
    (hbytes : ∀ lane, t.laneBytes lane = s.laneBytes lane) (hwires : t.Wires)
    (hread : s.se.st = .active → s.laneBytes .s2c = [] → s.OpenRead → t.OpenRead)
    (hheld : t.held < s.held) : Advances n s t := by
  obtain ⟨hcst, -, -, hn, -⟩ := (CF.regs_eq_iff _ _).mp hcf
  exact .inr ⟨h.step hmove hreset hparams hbench
    (fun hidle => ⟨hcst ▸ hidle, hcmd ▸ List.prefix_rfl⟩) (fun hidle => hn.trans (h.length (hcst ▸ hidle)))
    hwires (h.phase.of_laneBytes hse hcf hbytes hread), State.work_lt hcf hheld⟩

theorem State.Live.carry_c2s : carry .c2s s = s ∨ Advances n s (carry .c2s s) := by
  have hbytes := carry_laneBytes s .c2s
  rcases carry_cases .c2s s with heq | ⟨w, rest, hw, -, -, ⟨-, heq⟩ | ⟨hkind, -⟩⟩
  · exact .inl heq
  · refine .inr (h.transport (m := .carry .c2s) rfl (by simp) ?_ ?_ ?_ ?_ ?_ hbytes ?_ ?_ ?_) <;> rw [heq]
    any_goals rfl
    · exact { h.wires with reads := h.wires.reads.imp fun _ hr => { hr with } }
    · exact fun _ _ hopen => hopen
    · have hntx : s.cf.ntx.length = rest.length + 1 := congrArg List.length hw
      simp [State.held, State.setWritten, State.setLane, State.lane, hntx]
      omega
  · replace hw : s.cf.ntx = w :: rest := hw
    cases (h.ntx_bytes w (hw ▸ List.mem_cons_self)).symm.trans hkind

/-- SE's CLOSE is its last word, and leaves `SE.tx` empty (R228.5). -/
theorem State.Live.tx_of_close {w : NetWord} {rest : List NetWord} (hw : s.se.tx = w :: rest)
    (hkind : w.kind = .close) : rest = [] ∧ s.se.st = .closed := by
  refine ⟨?_, h.inv.se.tx_close_closed w (hw ▸ List.mem_cons_self) hkind⟩
  have hlast := h.inv.se.tx_close_last
  cases rest with
  | nil => rfl
  | cons w' rest =>
    have hbyte := hlast w (by rw [hw]; simp)
    cases hkind.symm.trans hbyte

theorem State.Live.carry_s2c : carry .s2c s = s ∨ Advances n s (carry .s2c s) := by
  have hbytes := carry_laneBytes s .s2c
  rcases carry_cases .s2c s with heq | ⟨w, rest, hw, -, hopen, ⟨hkind, heq⟩ | ⟨hkind, heq⟩⟩
  · exact .inl heq
  · replace hw : s.se.tx = w :: rest := hw
    replace hopen : s.link.s2c.closed = false := hopen
    refine .inr (h.transport (m := .carry .s2c) rfl (by simp) ?_ ?_ ?_ ?_ ?_ hbytes ?_ ?_ ?_) <;> rw [heq]
    any_goals rfl
    · exact { h.wires with
        reads := h.wires.reads.imp fun _ hr => { hr with }
        ended_closed := fun he => by cases hopen.symm.trans (h.wires.ended_closed he).1
        closed_written := fun hc => by cases hopen.symm.trans hc
        closing_written := fun hst => (h.wires.closing_written hst).imp_right fun hclose => by
          rw [hw, List.mem_cons] at hclose
          refine hclose.resolve_left fun hclose => ?_
          rw [← hclose] at hkind
          cases hkind }
    · exact fun _ _ hopen => hopen
    · simp [State.held, State.setWritten, State.setLane, State.lane, hw]
      omega
  · replace hw : s.se.tx = w :: rest := hw
    obtain ⟨rfl, hclosed⟩ := h.tx_of_close hw hkind
    refine .inr (h.transport (m := .carry .s2c) rfl (by simp) ?_ ?_ ?_ ?_ ?_ hbytes ?_ ?_ ?_) <;> rw [heq]
    any_goals rfl
    · exact { h.wires with
        reads := h.wires.reads.imp fun _ hr => { hr with }
        ended_closed := fun he => ⟨rfl, (h.wires.ended_closed he).2⟩
        closed_written := fun _ => ⟨hclosed, rfl⟩
        closing_written := fun _ => .inl rfl }
    · exact fun _ _ hopen => hopen
    · simp [State.held, State.setWritten, State.setLane, State.lane, hw]

theorem State.Live.deliver_c2s (last : Bool) :
    deliver .c2s last s = s ∨ Advances n s (deliver .c2s last s) := by
  have hbytes := deliver_laneBytes s .c2s
  rcases deliver_cases .c2s s last with heq | ⟨b, rest, hb, -, -, -, heq⟩
  · exact .inl heq
  · replace hb : s.link.c2s.buf = b :: rest := hb
    refine .inr (h.transport (m := .deliver .c2s last) rfl (by simp) ?_ ?_ ?_ ?_ ?_ (hbytes · last) ?_ ?_ ?_)
      <;> rw [heq]
    any_goals rfl
    · exact { h.wires with
        rx_bytes := List.forall_mem_append.mpr ⟨h.wires.rx_bytes, List.forall_mem_singleton.mpr rfl⟩
        reads := h.wires.reads.imp fun _ hr => { hr with } }
    · exact fun _ _ hopen => hopen
    · simp [State.held, State.pushRead, State.setLane, State.lane, hb]
      omega

theorem State.Live.deliver_s2c (last : Bool) :
    deliver .s2c last s = s ∨ Advances n s (deliver .s2c last s) := by
  have hbytes := deliver_laneBytes s .s2c
  rcases deliver_cases .s2c s last with heq | ⟨b, rest, hb, hended, -, -, heq⟩
  · exact .inl heq
  · replace hb : s.link.s2c.buf = b :: rest := hb
    replace hended : s.link.s2c.ended = false := hended
    refine .inr (h.transport (m := .deliver .s2c last) rfl (by simp) ?_ ?_ ?_ ?_ ?_ (hbytes · last) ?_ ?_ ?_)
      <;> rw [heq]
    any_goals rfl
    · obtain ⟨ws, hreads⟩ := h.wires.reads
      exact { h.wires with
        reads := ⟨_, hreads.deliver hended hended rfl fun hlast => by
          simp [State.setLane, hlast]⟩
        ended_closed := fun he => by cases hended.symm.trans he }
    · intro _ hnone
      simp [State.laneBytes, hb] at hnone
    · simp [State.held, State.pushRead, State.setLane, State.lane, hb]
      omega

theorem State.Live.deliverEof_c2s : deliverEof .c2s s = s :=
  deliverEof_disabled (.inl h.wires.c2s_open)

theorem State.Live.deliverEof_s2c : deliverEof .s2c s = s ∨ Advances n s (deliverEof .s2c s) := by
  have hbytes := deliverEof_laneBytes s .s2c
  rcases deliverEof_cases .s2c s with heq | ⟨hclosed, hbuf, hended, -, heq⟩
  · exact .inl heq
  · replace hended : s.link.s2c.ended = false := hended
    have hst := (h.wires.closed_written hclosed).1
    refine .inr (h.transport (m := .deliverEof .s2c) rfl (by simp) ?_ ?_ ?_ ?_ ?_ hbytes ?_ ?_ ?_)
      <;> rw [heq]
    any_goals rfl
    · obtain ⟨ws, hreads⟩ := h.wires.reads
      exact { h.wires with
        reads := ⟨ws, { hreads with
          nrx := by
            have hnrx : s.cf.nrx = ws := by simpa [hended] using hreads.nrx
            simp [State.pushRead, State.setLane, hnrx] }⟩
        ended_closed := fun _ => ⟨hclosed, hbuf⟩ }
    · intro hactive
      cases hst.symm.trans hactive
    · simp [State.held, State.pushRead, State.setLane, State.lane, hended]
      omega

/-- What CF wrote towards a closed SE is dropped (R96), of which the phase says nothing. -/
theorem State.Live.drop_c2s : dropWord .c2s s = s ∨ Advances n s (dropWord .c2s s) := by
  have hdropped : ∀ t : State, t.se = s.se → t.cf.regs = s.cf.regs →
      t.laneBytes .s2c = s.laneBytes .s2c → s.readerClosed .c2s = true → t.Phase := by
    intro t hse hcf hs2c hreader
    have hst := h.readerClosed_c2s hreader
    obtain ⟨hcst, hend⟩ := h.phase.of_closed hst
    obtain ⟨hcst', -, -, -, -, -, -, -, hsent, -⟩ := (CF.regs_eq_iff _ _).mp hcf
    exact .closes (hcst'.trans hcst) (hse ▸ hst) (by rw [hse, hsent, hs2c]; exact hend)
  have hmove : doMove (.drop .c2s) s = .next (dropWord .c2s s) := rfl
  rcases dropWord_cases .c2s s with heq | ⟨hreader, ⟨b, rest, hb, heq⟩ | ⟨-, -, heq⟩⟩
  · exact .inl heq
  · rw [heq] at hmove ⊢
    refine .inr (.inr ⟨h.step hmove (by simp) rfl rfl (fun hidle => ⟨hidle, List.prefix_rfl⟩) h.length
      { h.wires with reads := h.wires.reads.imp fun _ hr => { hr with } }
      (hdropped _ rfl rfl rfl hreader), ?_⟩)
    replace hb : s.link.c2s.buf = b :: rest := hb
    exact State.work_lt rfl (by simp [State.held, State.setLane, hb])
  · rw [heq] at hmove ⊢
    cases hntx : s.cf.ntx with
    | nil => exact .inl (State.setWritten_tail_of_nil hntx)
    | cons w rest =>
      refine .inr (.inr ⟨h.step hmove (by simp) rfl rfl (fun hidle => ⟨hidle, List.prefix_rfl⟩) h.length
        { h.wires with reads := h.wires.reads.imp fun _ hr => { hr with } }
        (hdropped _ rfl rfl rfl hreader), ?_⟩)
      exact State.work_lt rfl (by simp [State.held, State.setWritten, State.written, hntx])

theorem State.Live.drop_s2c : dropWord .s2c s = s := dropWord_open h.readerClosed_s2c

end Transport

end Sys2Proof.Machine
end

section
/-! SUPPORT. SE's move in a live session. -/

namespace Sys2Proof.Machine

/-! ### The stream as SE takes it (R180 to R182) -/

section Stream
variable {n : Nat} {s t : State}

/-- SE takes a byte of the stream, as the data byte that it then carries, or as the key byte of a pair that it
answers. -/
theorem State.Flows.takes {b : Byte} {body : List Byte} (h : s.Flows (b :: body)) (hcf : t.cf = s.cf)
    (hlink : t.link = s.link) (hpol : t.se.pol = s.se.pol)
    (hsending : t.laneBytes .c2s = body ++ if s.cf.allSent then [s.cf.sent] else [])
    (hcarry : (s.se.cv = false ∧ t.se.cv = true ∧ t.se.cb = b ∧ t.laneBytes .s2c = s.laneBytes .s2c) ∨
      (s.se.cv = true ∧ t.se.cv = false ∧ (t.laneBytes .s2c).length = (s.laneBytes .s2c).length + 1)) :
    t.Flows body := by
  have hunread : t.unread body = s.unread (b :: body) := by
    rcases hcarry with ⟨hs, ht, -, hbytes⟩ | ⟨hs, ht, hlen⟩
    · simp [State.unread, hs, ht, hbytes, Nat.add_comm]
    · simp [State.unread, hs, ht, hlen]; omega
  have hparity : (t.se.cv.toNat + body.length) % 2 = (s.se.cv.toNat + (b :: body).length) % 2 := by
    rcases hcarry with ⟨hs, ht, -⟩ | ⟨hs, ht, -⟩ <;> simp [hs, ht] <;> omega
  refine ⟨?_, ?_, ?_, ?_, fun hph ha => ?_, ?_, fun hskip => ?_⟩
  · rw [hsending, hcf]
  · rw [hparity, hcf, h.parity]
  · rw [hunread, hcf]; exact h.bounded
  · rw [hunread, hcf]; exact h.sends
  · rw [hunread, State.OpenRead, hcf, hlink]
    rw [hcf] at hph ha
    exact h.reads hph ha
  · rw [hcf]; exact h.chunk_ended
  · obtain ⟨-, hbody⟩ := h.symbols (hpol ▸ hskip)
    obtain ⟨hb, hbody⟩ := List.forall_mem_cons.mp hbody
    refine ⟨fun hcv => ?_, hbody⟩
    rcases hcarry with ⟨-, -, hcb, -⟩ | ⟨-, hcv', -⟩
    · rwa [hcb]
    · cases hcv'.symm.trans hcv

/-- A word at the head of the stream is a byte of it, or the sentinel that ends it, which stands at a data position
(R243, R246). -/
theorem State.Flows.head {body : List Byte} (h : s.Flows body) (hinv : s.Inv) {b : Byte} {bytes : List Byte}
    (hbytes : s.laneBytes .c2s = b :: bytes) :
    (∃ rest, body = b :: rest ∧ bytes = rest ++ if s.cf.allSent then [s.cf.sent] else []) ∨
      (s.se.cv = false ∧ b = s.cf.sent) := by
  have hsending := hbytes.symm.trans h.sending
  cases body with
  | cons b' rest =>
    obtain ⟨rfl, hrest⟩ := List.cons.inj hsending
    exact .inl ⟨rest, rfl, hrest⟩
  | nil =>
    have hparity := h.parity
    cases ha : s.cf.allSent with
    | false => rw [ha] at hsending; cases hsending
    | true =>
      obtain ⟨htxp, -⟩ := hinv.cf.all_sent ha
      rw [ha] at hsending
      refine .inr ⟨?_, (List.cons.inj hsending).1⟩
      cases hcv : s.se.cv with
      | false => rfl
      | true =>
        simp [hcv, htxp] at hparity

theorem keyStep_cv (u : SE) (w : NetWord) : (keyStep u w).cv = false := by
  unfold keyStep
  cases pairConverts u.cb w.data <;> cases keyPair u w <;> simp

/-- The answers of a live SE: a reply, or under ABORT the close (R168, R182). Under SKIP both bytes are symbols. -/
theorem keyPair_of_symbols {u : SE} {w : NetWord} (hlegal : u.pol ≠ .illegal)
    (hsymbols : u.pol = .skip → IsSymbol u.cb ∧ IsSymbol w.data) :
    (∃ b, keyPair u w = .out b) ∨ (keyPair u w = .abort ∧ u.pol = .abort) := by
  cases hpol : u.pol with
  | illegal => exact absurd hpol hlegal
  | skip =>
    obtain ⟨hd, hk⟩ := hsymbols hpol
    obtain ⟨dv, hd⟩ := Option.isSome_iff_exists.mp hd
    obtain ⟨kv, hk⟩ := Option.isSome_iff_exists.mp hk
    exact .inl ⟨_, keyPair_converts hd hk⟩
  | mark =>
    rcases keyPair_cases u w with ⟨v, hv⟩ | hv
    · exact .inl ⟨_, hv⟩
    · exact .inl ⟨markByteValue, by rw [hv, hpol]; rfl⟩
  | abort =>
    rcases keyPair_cases u w with ⟨v, hv⟩ | hv
    · exact .inl ⟨_, hv⟩
    · exact .inr ⟨by rw [hv, hpol]; rfl, rfl⟩

end Stream

/-! ### SE's move -/

section Server
variable {n : Nat} {s : State} {w : NetWord} {rest : List NetWord}

/-- A key byte leaves SE in the stream with a reply, or under ABORT it closes SE. -/
theorem State.Flows.answers_phase {body : List Byte} (hflow : s.Flows (w.data :: body))
    (hcst : s.cf.cst = .stream) (hst : s.se.st = .active) (hcv : s.se.cv = true)
    (hlegal : s.se.pol ≠ .illegal) {v : SE} (hv : v = keyStep { s.se with rx := rest } w)
    (hrest : ({ s with se := v } : State).laneBytes .c2s =
      body ++ if s.cf.allSent then [s.cf.sent] else []) : ({ s with se := v } : State).Phase := by
  have hst' : v.st = _ := (congrArg SE.st hv).trans (keyStep_st _ w)
  have htx : v.tx = _ := (congrArg SE.tx hv).trans (keyStep_tx _ w)
  have hcv' : v.cv = false := (congrArg SE.cv hv).trans (keyStep_cv _ w)
  obtain ⟨-, -, hpol, -⟩ := (SE.configRegs_eq_iff _ _).mp
    ((congrArg SE.configRegs hv).trans (keyStep_configRegs _ w))
  have hsymbols : s.se.pol = .skip → IsSymbol s.se.cb ∧ IsSymbol w.data := fun hskip => by
    obtain ⟨hcb, hbody⟩ := hflow.symbols hskip
    exact ⟨hcb hcv, hbody _ List.mem_cons_self⟩
  rcases keyPair_of_symbols (u := { s.se with rx := rest }) hlegal hsymbols with ⟨b, hb⟩ | ⟨hb, habort⟩
  · rw [hb] at hst' htx
    refine .flows hcst (hst'.trans hst) body
      (hflow.takes rfl rfl hpol hrest (.inr ⟨hcv, hcv', ?_⟩))
    simp [State.laneBytes, htx, PairResult.words, Nat.add_assoc]
  · rw [hb] at hst'
    exact .closes hcst hst' (.inl (hpol.trans habort))

/-- What SE leaves of the session's phase with the word it takes. -/
theorem State.Live.takes_phase (h : s.Live n) (hw : s.se.rx = w :: rest) {v : SE}
    (htakes : SE.Takes { s.se with rx := rest } w v) : ({ s with se := v } : State).Phase := by
  have hkind : w.kind = .byte := h.wires.rx_bytes w (hw ▸ List.mem_cons_self)
  have hrx : v.rx = rest := htakes.rx
  have hsent := h.terms.sentinel
  have hc2s : s.laneBytes .c2s = w.data :: ({ s with se := v } : State).laneBytes .c2s := by
    simp [State.laneBytes, hw, hrx, byteData_cons_byte rest hkind]
  have hs2c : ∀ ws, v.tx = s.se.tx ++ ws →
      ({ s with se := v } : State).laneBytes .s2c = s.laneBytes .s2c ++ byteData ws := fun ws htx => by
    simp [State.laneBytes, htx]
  cases htakes with
  | accepts hst _ hdata =>
    cases h.phase with
    | waits _ _ hnone => cases hc2s.symm.trans hnone
    | offers hcst _ hone hnone =>
      have hcv : s.se.cv = false := Bool.eq_false_iff.mpr fun hcv => by
        cases hst.symm.trans (h.inv.se.carry_active hcv)
      refine .echoes hcst rfl hcv (List.cons.inj (hc2s.symm.trans hone)).2 ?_
      rw [hs2c [byteWord false s.se.sent] rfl, hnone, hsent]
      rfl
    | echoes _ hst' | flows _ hst' | closes _ hst' => cases hst.symm.trans hst'
  | rejects _ hst hword =>
    cases h.phase with
    | waits _ _ hnone => cases hc2s.symm.trans hnone
    | offers _ _ hone =>
      exact absurd ⟨hkind, (List.cons.inj (hc2s.symm.trans hone)).1.trans hsent.symm⟩ hword
    | echoes _ hst' | flows _ hst' | closes _ hst' => cases hst.symm.trans hst'
  | carries hst hcv _ hdata =>
    cases h.phase with
    | echoes _ _ _ hnone => cases hc2s.symm.trans hnone
    | flows hcst _ body hflow =>
      rcases hflow.head h.inv hc2s with ⟨body, rfl, hrest⟩ | ⟨-, hend⟩
      · exact .flows hcst hst body (hflow.takes rfl rfl rfl hrest
          (.inl ⟨hcv, rfl, rfl, by rw [hs2c [] (List.append_nil _).symm]; simp⟩))
      · exact absurd (hend.trans hsent.symm) hdata
    | waits _ hst' | offers _ hst' | closes _ hst' => cases hst.symm.trans hst'
  | terminates hst =>
    cases h.phase with
    | echoes _ _ _ hnone => cases hc2s.symm.trans hnone
    | flows hcst =>
      refine .closes hcst (SE.close_st _ _) (.inr ?_)
      rw [hs2c [byteWord false s.se.sent, closeWord] (by simp), hsent]
      exact List.mem_append_right _ List.mem_cons_self
    | waits _ hst' | offers _ hst' | closes _ hst' => cases hst.symm.trans hst'
  | answers hst hcv =>
    cases h.phase with
    | echoes _ _ _ hnone => cases hc2s.symm.trans hnone
    | flows hcst _ body hflow =>
      rcases hflow.head h.inv hc2s with ⟨body, rfl, hrest⟩ | ⟨hcv', -⟩
      · exact hflow.answers_phase hcst hst hcv h.policy_legal rfl hrest
      · cases hcv'.symm.trans hcv
    | waits _ hst' | offers _ hst' | closes _ hst' => cases hst.symm.trans hst'
  | ends _ _ hkind' => exact absurd hkind hkind'
  | discards hst =>
    obtain ⟨hcst, hend⟩ := h.phase.of_closed hst
    exact .closes hcst hst (by rw [hs2c [] (List.append_nil _).symm]; simpa using hend)

/-- What SE leaves on the wires with the word it takes. -/
theorem State.Live.takes_wires (h : s.Live n) (hw : s.se.rx = w :: rest) {v : SE}
    (htakes : SE.Takes { s.se with rx := rest } w v) : ({ s with se := v } : State).Wires := by
  have hrx : v.rx = rest := htakes.rx
  obtain ⟨ws, htx, hadd⟩ := htakes.mayAdd
  replace htx : v.tx = s.se.tx ++ ws := htx
  have hclosed : s.se.st = .closed → v = { s.se with rx := rest } := htakes.eq_of_closed
  exact { h.wires with
    rx_bytes := fun w' hw' => h.wires.rx_bytes w' (by
      rw [hw]; exact List.mem_cons_of_mem w (hrx ▸ hw'))
    reads := h.wires.reads.imp fun _ hr => { hr with }
    closed_written := fun hc => by
      obtain ⟨hst, hnone⟩ := h.wires.closed_written hc
      rw [hclosed hst]
      exact ⟨hst, hnone⟩
    closing_written := fun hst => by
      by_cases hst' : s.se.st = .closed
      · refine (h.wires.closing_written hst').imp_right fun hclose => ?_
        rw [hclosed hst']
        exact hclose
      · refine .inr ?_
        rw [htx]
        exact List.mem_append_right _ (hadd.close.mpr ⟨hst', hst⟩) }

theorem State.Live.se {t : State} (h : s.Live n) (hmove : doMove .se s = .next t) :
    t = s ∨ Advances n s t := by
  cases hw : s.se.rx with
  | nil => exact .inl (Host.Outcome.next.inj ((doMove_se_empty hw).symm.trans hmove)).symm
  | cons w rest =>
    rcases doMove_se_seStep hw hmove with rfl | ⟨v, htakes, -, rfl⟩
    · exact .inl rfl
    · refine .inr (.inr ⟨h.step hmove (by simp) rfl rfl (fun hidle => ⟨hidle, List.prefix_rfl⟩) h.length
        (h.takes_wires hw htakes) (h.takes_phase hw htakes), State.work_lt rfl ?_⟩)
      obtain ⟨ws, htx, hadd⟩ := htakes.mayAdd
      replace htx : v.tx = s.se.tx ++ ws := htx
      have hrx : v.rx = rest := htakes.rx
      have hlen := hadd.length
      simp only [State.held, htx, hrx, hw, List.length_append, List.length_cons]
      omega

end Server

end Sys2Proof.Machine
end

section
/-! SUPPORT. CF's moves in a live session. -/

namespace Sys2Proof.Machine

/-! ### The words of the read (R205 to R208, R247 to R251) -/

section Read
variable {n : Nat} {s t : State} {w : NetWord} {rest : List NetWord}

/-- The oldest word of `CF.nrx` is a byte, behind which the others stand, or the EOF, and then it is the only one. -/
theorem State.Reads.head {ws : List NetWord} (h : s.Reads ws) (hw : s.cf.nrx = w :: rest)
    (hnrx : t.cf.nrx = rest) (hlink : t.link = s.link) :
    (w.kind = .byte ∧ t.Reads ws.tail) ∨ (s.link.s2c.ended = true ∧ w = eofWord ∧ rest = []) := by
  have hwords := hw.symm.trans h.nrx
  cases ws with
  | nil =>
    cases hended : s.link.s2c.ended with
    | false => rw [hended] at hwords; cases hwords
    | true =>
      rw [hended] at hwords
      obtain ⟨rfl, rfl⟩ := List.cons.inj hwords
      exact .inr ⟨rfl, rfl, rfl⟩
  | cons w' ws =>
    obtain ⟨rfl, hrest⟩ := List.cons.inj hwords
    obtain ⟨hkind, hbytes⟩ := List.forall_mem_cons.mp h.bytes
    refine .inl ⟨hkind, ⟨by rw [hnrx, hlink]; exact hrest, hbytes, fun last hlast hopen => ?_⟩⟩
    rw [hlink]
    refine h.unfinished last ?_ hopen
    cases ws with
    | nil => cases hlast
    | cons => exact hlast

/-- In the stream CF takes a reply (R247): there is one less, and if that was the last, the read has ended with it or
stays open (R93). -/
theorem State.Flows.receives {body : List Byte} (h : s.Flows body) (hph : s.cf.ph = true)
    (hwires : s.Wires) (hst : s.se.st = .active) (hw : s.cf.nrx = w :: rest) (hkind : w.kind = .byte)
    (ht : t = { s with cf := recvStep { s.cf with nrx := rest } w }) : t.Flows body := by
  obtain ⟨-, hended⟩ := hwires.s2c_open (by simp [hst])
  obtain ⟨ws, hreads⟩ := hwires.reads
  have hwords : s.cf.nrx = ws := by simpa [hended] using hreads.nrx
  have hnrx : t.cf.nrx = rest := by rw [ht]; rfl
  have hph' : t.cf.ph = if w.last && !s.cf.allSent then false else true := by
    rw [ht]
    show (if w.last && !s.cf.allSent then false else s.cf.ph) = _
    rw [hph]
  have hcf : t.cf.allSent = s.cf.allSent ∧ t.cf.sent = s.cf.sent ∧ t.cf.txp = s.cf.txp ∧
      t.cf.cc = s.cf.cc := by subst ht; exact ⟨rfl, rfl, rfl, rfl⟩
  obtain ⟨ha, hsent, htxp, hcc⟩ := hcf
  have hse : t.se = s.se := by rw [ht]
  have hlink : t.link = s.link := by rw [ht]
  have hc2s : t.laneBytes .c2s = s.laneBytes .c2s := by rw [ht]; rfl
  have hs2c : s.laneBytes .s2c = w.data :: t.laneBytes .s2c := by
    simp [State.laneBytes, hw, hnrx, hse, hlink, byteData_cons_byte rest hkind]
  have hunread : s.unread body = t.unread body + 1 := by
    simp [State.unread, hs2c, hse]; omega
  refine ⟨?_, ?_, ?_, fun _ => ?_, fun hread hall => ?_, fun _ => ?_, ?_⟩
  · rw [hc2s, ha, hsent, h.sending]
  · rw [hse, htxp, h.parity]
  · have hbound := h.bounded
    rw [htxp]
    omega
  · rw [hcc, htxp, h.chunk_ended hph]
    simp
  · by_cases hnone : t.laneBytes .s2c = []
    · have hrest : rest = [] := by
        refine eq_nil_of_byteData (fun w' hw' => hreads.bytes w' ?_) ?_
        · rw [← hwords, hw]
          exact List.mem_cons_of_mem w hw'
        · simp only [State.laneBytes, hnrx, List.append_eq_nil_iff] at hnone
          exact hnone.1.1
      subst hrest
      have hlast : w.last = false := by
        rw [ha] at hall
        simpa [hph', hall] using hread
      refine .inr ⟨hnrx, ?_⟩
      rw [hlink]
      exact hreads.unfinished w (by rw [← hwords, hw]; rfl) hlast
    · exact .inl (State.one_le_unread hnone body)
  · rw [hcc, h.chunk_ended hph]
  · rw [hse]; exact h.symbols

/-- After the handshake the stream is empty (R205). -/
theorem State.Flows.empty (htxp : s.cf.txp = 0) (hph : s.cf.ph = false) (ha : s.cf.allSent = false)
    (hcv : s.se.cv = false) (hc2s : s.laneBytes .c2s = []) (hs2c : s.laneBytes .s2c = []) :
    s.Flows [] where
  sending := by simp [hc2s, ha]
  parity := by simp [htxp, hcv]
  bounded := by simp [State.unread, hs2c, hcv]
  sends _ := by simp [htxp]
  reads hph' := by cases hph.symm.trans hph'
  chunk_ended hph' := by cases hph.symm.trans hph'
  symbols _ := ⟨fun hcv' => (by cases hcv.symm.trans hcv'), by simp⟩

/-- The EOF ends the session, and only under ABORT does it come before the sentinel (R249, R94). -/
theorem State.Live.takes_eof (h : s.Live n) (hended : s.link.s2c.ended = true)
    (hw : s.cf.nrx = [eofWord]) {d : CF} (htakes : CF.TakesNet { s.cf with nrx := [] } eofWord d) :
    ({ s with cf := d } : State).Ended := by
  obtain ⟨hclosed, hbuf⟩ := h.wires.ended_closed hended
  obtain ⟨hst, htx⟩ := h.wires.closed_written hclosed
  obtain ⟨hcst, hend⟩ := h.phase.of_closed hst
  have hnone : s.laneBytes .s2c = [] := by simp [State.laneBytes, hw, hbuf, htx]
  cases htakes with
  | fails =>
    refine .inr ⟨hend.resolve_right ?_, CF.fails_cst _ _⟩
    simp [hnone]
  | receives _ _ hkind | completes _ _ hkind => cases hkind
  | discards hcst' => rcases hcst' with hcst' | hcst' | hcst' <;> cases hcst.symm.trans hcst'
  | accepts hcst' | rejects _ hcst' => cases hcst.symm.trans hcst'

/-- A byte that CF takes ends the session as the sentinel, or leaves it in the stream. -/
theorem State.Live.takes_byte (h : s.Live n) (hw : s.cf.nrx = w :: rest) (hkind : w.kind = .byte) {d : CF}
    (htakes : CF.TakesNet { s.cf with nrx := rest } w d) :
    ({ s with cf := d } : State).Ended ∨ (({ s with cf := d } : State).Phase ∧ d.cst = .stream ∧
      d.n = s.cf.n ∧ d.ntx = s.cf.ntx ∧ d.res.length ≤ s.cf.res.length + 1 ∧
      d.sendsLeft n = s.cf.sendsLeft n) := by
  have hbytes : s.laneBytes .s2c = w.data :: (byteData rest ++ s.link.s2c.buf ++ byteData s.se.tx) := by
    simp [State.laneBytes, hw, byteData_cons_byte rest hkind]
  cases htakes with
  | discards hcst =>
    cases h.phase with
    | waits _ _ _ hnone => cases hbytes.symm.trans hnone
    | offers hcst' | echoes hcst' | flows hcst' | closes hcst' =>
      rcases hcst with hcst | hcst | hcst <;> cases hcst.symm.trans hcst'
  | accepts hcst =>
    replace hcst : s.cf.cst = .hsWait := hcst
    cases h.phase with
    | offers _ _ _ hnone => cases hbytes.symm.trans hnone
    | echoes _ hst hcv hc2s hone =>
      obtain ⟨htxp, hph, ha⟩ := h.inv.cf.unsent (.inr hcst)
      refine .inr ⟨.flows rfl hst [] (.empty htxp hph ha hcv hc2s ?_), rfl, rfl, rfl, Nat.le_succ _, ?_⟩
      · exact (List.cons.inj (hbytes.symm.trans hone)).2
      · simp [CF.sendsLeft, hcst, htxp, ha]
    | waits hcst' | flows hcst' | closes hcst' => cases hcst.symm.trans hcst'
  | rejects _ hcst hword =>
    cases h.phase with
    | offers _ _ _ hnone => cases hbytes.symm.trans hnone
    | echoes _ _ _ _ hone => exact absurd ⟨hkind, (List.cons.inj (hbytes.symm.trans hone)).1⟩ hword
    | waits hcst' | flows hcst' | closes hcst' => cases hcst.symm.trans hcst'
  | receives hcst hph _ hdata =>
    have hphase : ({ s with cf := recvStep { s.cf with nrx := rest } w } : State).Phase := by
      cases h.phase with
      | flows _ hst body hflow =>
        exact .flows hcst hst body (hflow.receives hph h.wires hst hw hkind rfl)
      | closes _ hst hend =>
        refine .closes hcst hst (hend.imp_right fun hmem => ?_)
        rw [hbytes, List.mem_cons] at hmem
        exact hmem.resolve_left (Ne.symm hdata)
      | waits hcst' | offers hcst' | echoes hcst' => cases hcst.symm.trans hcst'
    exact .inr ⟨hphase, hcst, rfl, rfl, by simp [recvStep], rfl⟩
  | completes => exact .inl (.inl rfl)
  | fails _ _ _ hkind' => exact absurd hkind hkind'

theorem State.Live.cfNet (h : s.Live n) (hmove : doMove .cfNet s = .next t) : t = s ∨ Advances n s t := by
  cases hw : s.cf.nrx with
  | nil => exact .inl (Host.Outcome.next.inj ((doMove_cfNet_empty hw).symm.trans hmove)).symm
  | cons w rest =>
    rcases doMove_cfNet_cfNetStep hw hmove with rfl | ⟨d, htakes, -, rfl⟩
    · exact .inl rfl
    · have hnrx : d.nrx = rest := htakes.nrx
      obtain ⟨ws, hreads⟩ := h.wires.reads
      rcases hreads.head (t := { s with cf := d }) hw hnrx rfl with ⟨hkind, hreads⟩ | ⟨hended, rfl, rfl⟩
      · rcases h.takes_byte hw hkind htakes with hend | ⟨hphase, hcst, hn, hntx, hres, hsends⟩
        · exact .inr (.inl hend)
        · have hidle : s.cf.cst ≠ .idle := fun hidle => by
            cases htakes with
            | discards => cases hcst.symm.trans hidle
            | accepts hcst' | rejects _ hcst' | receives hcst' | completes hcst' | fails _ hcst' =>
              cases hidle.symm.trans hcst'
          refine .inr (.inr ⟨h.step hmove (by simp) rfl rfl (fun hidle => by cases hcst.symm.trans hidle)
            (fun _ => hn.trans (h.length hidle)) { h.wires with reads := ⟨_, hreads⟩ } hphase, ?_⟩)
          simp only [State.work, State.held, hsends, hntx, hnrx, hw, List.length_cons]
          omega
      · exact .inr (.inl (h.takes_eof hended hw htakes))

end Read

/-! ### The START (R240) -/

section Command
variable {n : Nat} {s t : State}

theorem State.Live.cfCommand (h : s.Live n) (hmove : doMove .cfCommand s = .next t) :
    t = s ∨ Advances n s t := by
  cases hw : s.cf.cmd with
  | nil => exact .inl (Host.Outcome.next.inj ((doMove_cfCommand_empty hw).symm.trans hmove)).symm
  | cons w rest =>
    rcases doMove_cfCommand_cfCommandStep hw hmove with rfl | ⟨d, htakes, -, rfl⟩
    · exact .inl rfl
    · obtain ⟨hcst, -⟩ := htakes.cst
      replace hcst : s.cf.cst = .idle := hcst
      obtain ⟨m, rest', hle, hcmd⟩ := h.command hcst
      obtain ⟨rfl, rfl⟩ := List.cons.inj (hw.symm.trans hcmd)
      obtain ⟨⟨hn, hm⟩, -⟩ := List.forall_mem_cons.mp (hw ▸ h.inv.cf.cmd_lengths)
      cases htakes with
      | fails _ _ hword => exact absurd ⟨rfl, hle⟩ hword
      | starts =>
        rw [startStep_of_lt hn hm] at hmove ⊢
        cases h.phase with
        | waits _ hst hc2s hs2c =>
          refine .inr (.inr ⟨h.step hmove (by simp) rfl rfl nofun (fun _ => rfl)
            { h.wires with reads := h.wires.reads.imp fun _ hr => { hr with } }
            (.offers rfl hst ?_ hs2c), ?_⟩)
          · show byteData s.se.rx ++ s.link.c2s.buf ++ byteData (s.cf.ntx ++ [byteWord true s.cf.sent]) = _
            rw [byteData_append, ← List.append_assoc]
            exact congrArg (· ++ [s.cf.sent]) hc2s
          · simp [State.work, State.held, CF.sendsLeft, hcst]
            omega
        | offers hcst' | echoes hcst' | flows hcst' | closes hcst' => cases hcst.symm.trans hcst'

end Command

/-! ### The internal step (R245, R246) -/

section Internal
variable {n : Nat} {s t : State}

/-- Everything CF's internal step can do, with the byte that it reads for its stream position (R243, R245). -/
theorem doMove_cfInternal_reads (hinv : s.Inv) (hmove : doMove .cfInternal s = .next t) :
    t = s ∨ (s.cf.cst = .stream ∧ s.cf.ph = false ∧
      ((s.cf.txp < 2 * s.cf.n ∧ t = { s with cf := sendStep s.params (s.streamByte s.cf.txp) s.cf }) ∨
       (¬s.cf.txp < 2 * s.cf.n ∧ t = { s with cf :=
          { s.cf.emitNet (byteWord true s.cf.sent) with allSent := true, ph := true } }))) := by
  rcases doMove_cfInternal_cases hmove with rfl | ⟨d, hsends, hfits, -, rfl⟩
  · exact .inl rfl
  · refine .inr ?_
    cases hsends with
    | byte b hcst hph hmore =>
      have hroom : CfRoom s 1 0 := ⟨by simpa [sendStep] using hfits, hinv.cf.res_fits⟩
      have hdecode := decode_cfInternalVector hcst hph (hinv.cf.not_allSent hph) (decide_eq_true hmore)
      have hsend := doMove_cfInternal_sendByte hdecode hroom
      exact ⟨hcst, hph, .inl ⟨hmore, Host.Outcome.next.inj (hmove.symm.trans hsend)⟩⟩
    | sentinel hcst hph hend => exact ⟨hcst, hph, .inr ⟨hend, rfl⟩⟩

/-- The stream byte of a valid session is a symbol (R320). -/
theorem isSymbol_streamByte (hinv : s.Inv) (hmore : s.cf.txp < 2 * s.cf.n)
    (h : ∀ i, i < s.cf.n → IsSymbol (s.data.read i) ∧ IsSymbol (s.key.read i)) :
    IsSymbol (s.streamByte s.cf.txp) := by
  obtain ⟨hn, -⟩ := hinv.cf.lengths
  rw [s.streamByte_of_lt (div_two_lt_of_lt_two_mul hmore hn)]
  obtain ⟨hdata, hkey⟩ := h (s.cf.txp / 2) (by omega)
  split
  exacts [hdata, hkey]

/-- CF sends a byte of the stream. A chunk of two bytes or more completes a pair, and so does one of one byte that
starts at an odd position, as a chunk that ends there with the stream does (R244, R320). -/
theorem State.Flows.sends_byte {body : List Byte} {b : Byte} (h : s.Flows body) (hinv : s.Inv)
    (hterms : s.Terms n) (hph : s.cf.ph = false) (hmore : s.cf.txp < 2 * s.cf.n)
    (hsymbol : s.se.pol = .skip → IsSymbol b) (ht : t = { s with cf := sendStep s.params b s.cf }) :
    t.Flows (body ++ [b]) := by
  have ha := hinv.cf.not_allSent hph
  have hmod := hinv.cf.cc_mod hmore
  have hlt := hinv.cf.cc_lt hinv.legal hmore
  have hchunk := hterms.chunk
  obtain ⟨-, hmax, -⟩ := hinv.legal
  obtain ⟨hn, -⟩ := hinv.cf.lengths
  rw [sendStep_of_lt hph hmore hn] at ht
  have hle : s.cf.cc.toNat ≤ s.cf.txp := hmod ▸ Nat.mod_le _ _
  have hsends := h.sends hph
  have hparity := h.parity
  have hbound := h.bounded
  have hse : t.se = s.se := by rw [ht]
  have hunread : t.unread (body ++ [b]) = s.unread body + s.cf.txp % 2 := by
    have hs2c : t.laneBytes .s2c = s.laneBytes .s2c := by rw [ht]; rfl
    rw [State.unread, State.unread, hse, hs2c, List.length_append, List.length_singleton]
    omega
  have htxp : t.cf.txp = s.cf.txp + 1 := by rw [ht]
  have hph' : t.cf.ph = chunkEnds s.params s.cf := by rw [ht]
  refine ⟨?_, ?_, ?_, fun hgoes => ?_, fun hends _ => .inl ?_, fun hends => ?_, fun hskip => ?_⟩
  · subst ht
    have hsending := h.sending
    simp only [ha, State.laneBytes, Bool.false_eq_true, if_false, List.append_nil] at hsending ⊢
    simp [← hsending]
  · rw [htxp, hse, List.length_append, List.length_singleton]
    omega
  · rw [hunread, htxp]
    omega
  · have hcc : t.cf.cc.toNat = s.cf.cc.toNat + 1 := by
      rw [ht, hph'.symm.trans hgoes]
      exact BitVec.toNat_add_of_lt (by simp; omega)
    rw [hunread, hcc, htxp]
    omega
  · rw [hunread]
    rcases chunkEnds_iff.mp (hph'.symm.trans hends) with hfull | hlast <;> omega
  · rw [ht, hph'.symm.trans hends]
    rfl
  · subst ht
    obtain ⟨hcb, hbody⟩ := h.symbols hskip
    exact ⟨hcb, List.forall_mem_append.mpr ⟨hbody, List.forall_mem_singleton.mpr (hsymbol hskip)⟩⟩

/-- CF sends the sentinel behind the stream (R246). -/
theorem State.Flows.sends_sentinel {body : List Byte} (h : s.Flows body) (hinv : s.Inv)
    (hph : s.cf.ph = false) (hend : ¬s.cf.txp < 2 * s.cf.n)
    (ht : t = { s with cf := { s.cf.emitNet (byteWord true s.cf.sent) with allSent := true, ph := true } }) :
    t.Flows body := by
  have ha := hinv.cf.not_allSent hph
  have htxp : s.cf.txp = 2 * s.cf.n := le_antisymm hinv.cf.txp_le (not_lt.mp hend)
  subst ht
  refine { h with sending := ?_, sends := nofun, reads := nofun, chunk_ended := fun _ => hinv.cf.cc_zero htxp }
  have hsending := h.sending
  simp only [ha, State.laneBytes, Bool.false_eq_true, if_false, List.append_nil] at hsending ⊢
  simp [← hsending]

theorem State.Live.cfInternal (h : s.Live n)
    (hsymbols : s.se.pol = .skip → s.cf.cst = .stream →
      ∀ i, i < n → IsSymbol (s.data.read i) ∧ IsSymbol (s.key.read i))
    (hmove : doMove .cfInternal s = .next t) : t = s ∨ Advances n s t := by
  rcases doMove_cfInternal_reads h.inv hmove with heq | ⟨hcst, hph, hsends⟩
  · exact .inl heq
  · have hn := h.length (by simp [hcst])
    have ha := h.inv.cf.not_allSent hph
    have hnext := h.step hmove (by simp)
    refine .inr (.inr ?_)
    rcases hsends with ⟨hmore, ht⟩ | ⟨hend, ht⟩
    · have hphase : t.Phase := by
        cases h.phase with
        | flows _ hst body hflow =>
          refine .flows (by rw [ht]; exact hcst) (by rw [ht]; exact hst) _
            (hflow.sends_byte h.inv h.terms hph hmore (fun hskip => ?_) ht)
          exact isSymbol_streamByte h.inv hmore (hn ▸ hsymbols hskip hcst)
        | closes _ hst hend => subst ht; exact .closes hcst hst hend
        | waits hcst' | offers hcst' | echoes hcst' => cases hcst.symm.trans hcst'
      rw [sendStep_of_lt hph hmore h.inv.cf.lengths.1] at ht
      subst ht
      refine ⟨hnext rfl rfl (fun hidle => by cases hcst.symm.trans hidle) (fun _ => hn)
        { h.wires with reads := h.wires.reads.imp fun _ hr => { hr with } } hphase, ?_⟩
      simp [State.work, State.held, CF.sendsLeft, hcst, ha]
      omega
    · have hphase : t.Phase := by
        cases h.phase with
        | flows _ hst body hflow =>
          exact .flows (by rw [ht]; exact hcst) (by rw [ht]; exact hst) _
            (hflow.sends_sentinel h.inv hph hend ht)
        | closes _ hst hend => subst ht; exact .closes hcst hst hend
        | waits hcst' | offers hcst' | echoes hcst' => cases hcst.symm.trans hcst'
      subst ht
      refine ⟨hnext rfl rfl (fun hidle => by cases hcst.symm.trans hidle) (fun _ => hn)
        { h.wires with reads := h.wires.reads.imp fun _ hr => { hr with } } hphase, ?_⟩
      simp [State.work, State.held, CF.sendsLeft, hcst, ha]
      omega

end Internal

end Sys2Proof.Machine
end

section
/-! SUPPORT. Every move of a run that R320 speaks of, in a live session; a live session at rest, which
is one in an open read; and endless runs. Then the statement that a session ends. -/

namespace Sys2Proof.Machine

/-! ### Every move -/

section Moves
variable {n : Nat} {s t : State}

/-- A move that the argument does not see, or one that advances the session. -/
def Goes (n : Nat) (s t : State) : Prop := (t.core = s.core ∧ t.Live n) ∨ Advances n s t

theorem State.Live.goes_of_eq_or (h : s.Live n) (hmove : t = s ∨ Advances n s t) : Goes n s t := by
  rcases hmove with rfl | hadvances
  · exact .inl ⟨rfl, h⟩
  · exact .inr hadvances

/-- The host takes a result (R98). -/
theorem State.Live.takeRes (h : s.Live n) : takeRes s = s ∨ Advances n s (takeRes s) := by
  cases hres : s.cf.res with
  | nil => exact .inl (by rw [Machine.takeRes, hres, List.tail_nil, ← hres])
  | cons w rest =>
    refine .inr (h.transport (m := .takeRes) rfl (by simp) rfl rfl rfl rfl rfl (fun lane => by cases lane <;> rfl)
      { h.wires with reads := h.wires.reads.imp fun _ hr => { hr with } } (fun _ _ hopen => hopen) ?_)
    simp [State.held, Machine.takeRes, hres]

/-- Operands presented to a combinational unit, and its answer, stand on the nets alone. -/
theorem State.Live.unitStep_nets_core {m : Move} (h : s.Live n) (hmove : unitStep m s = .next t)
    (hnets : ∀ v i, presented m s = some v → encode i = v →
      inputOf i = .nets ∨ inputOf i = .policyRegister) : t.core = s.core ∧ t.cf = s.cf := by
  have hpresent : (present m s).core = s.core ∧ (present m s).cf = s.cf := by cases m <;> exact ⟨rfl, rfl⟩
  rcases unitStep_cases hmove with rfl | ⟨v, i, hv, hd, he⟩
  · exact ⟨rfl, rfl⟩
  · obtain ⟨-, hword⟩ := isWordOf_of_decode hd
    rcases hnets v i hv hword with hi | hi
    · rcases exec_writes he with ⟨hi', -⟩ | ⟨hi', -⟩ | ⟨-, k, rfl⟩
      · simp [hi] at hi'
      · simp [hi] at hi'
      · exact hpresent
    · obtain rfl := inputOf_eq_policyRegister hi
      exact absurd (pol_illegal_of_decode_polIllegal hv hd) h.policy_legal

/-- A move of the transport in a live session, but IOERR. -/
theorem State.Live.carry (h : s.Live n) (lane : Lane) : carry lane s = s ∨ Advances n s (carry lane s) := by
  cases lane
  exacts [h.carry_c2s, h.carry_s2c]

theorem State.Live.deliver (h : s.Live n) (lane : Lane) (last : Bool) :
    deliver lane last s = s ∨ Advances n s (deliver lane last s) := by
  cases lane
  exacts [h.deliver_c2s last, h.deliver_s2c last]

theorem State.Live.deliverEof (h : s.Live n) (lane : Lane) :
    deliverEof lane s = s ∨ Advances n s (deliverEof lane s) := by
  cases lane
  exacts [.inl h.deliverEof_c2s, h.deliverEof_s2c]

theorem State.Live.drop (h : s.Live n) (lane : Lane) :
    dropWord lane s = s ∨ Advances n s (dropWord lane s) := by
  cases lane
  exacts [h.drop_c2s, .inl h.drop_s2c]

/-- Of a transport that has served no other session there is none to connect anew (R297). -/
theorem State.Live.connect (h : s.Live n) : connect s = s :=
  connect_disabled (not_betweenSessions (lane := .c2s) (.inl h.wires.c2s_kept))

theorem State.Live.benchPut (h : s.Live n) (lane : Lane) (w : NetWord) : benchPut lane w s = s :=
  (benchPut_cases lane s w).resolve_right fun hb => by cases h.terms.host.symm.trans hb.1

theorem State.Live.benchTake (h : s.Live n) (lane : Lane) : benchTake lane s = s :=
  (benchTake_cases lane s).resolve_right fun hb => by cases h.terms.host.symm.trans hb.1

/-- Every move but a reset and an IOERR. -/
theorem State.Live.goes (h : s.Live n)
    (hsymbols : s.se.pol = .skip → s.cf.cst = .stream →
      ∀ i, i < n → IsSymbol (s.data.read i) ∧ IsSymbol (s.key.read i))
    {m : Move} (hmove : doMove m s = .next t) (hreset : m ≠ .resetSe ∧ m ≠ .resetCf)
    (herr : ∀ lane, m ≠ .deliverErr lane) : Goes n s t := by
  have unseen : t.core = s.core → s.cf.cmd <+: t.cf.cmd → Goes n s t := fun hcore hcmd =>
    .inl ⟨hcore, h.of_core hmove hreset hcore hcmd⟩
  have nets : t.core = s.core ∧ t.cf = s.cf → Goes n s t := fun ⟨hcore, hcf⟩ =>
    unseen hcore (hcf ▸ List.prefix_rfl)
  have done : ∀ u, .next u = (.next t : Host.Outcome State Fault Refusal) → (u = s ∨ Advances n s u) →
      Goes n s t := fun u hu hgoes => h.goes_of_eq_or (Host.Outcome.next.inj hu ▸ hgoes)
  cases m with
  | se => exact h.goes_of_eq_or (h.se hmove)
  | cfCommand => exact h.goes_of_eq_or (h.cfCommand hmove)
  | cfNet => exact h.goes_of_eq_or (h.cfNet hmove)
  | cfInternal => exact h.goes_of_eq_or (h.cfInternal hsymbols hmove)
  | alpha b =>
    exact nets (h.unitStep_nets_core (m := .alpha b) hmove fun _ _ hv hword =>
      .inl (inputOf_of_byte (hword.trans (Option.some.inj hv).symm)))
  | xform d k =>
    exact nets (h.unitStep_nets_core (m := .xform d k) hmove fun _ _ hv hword =>
      .inl (inputOf_of_cfgDir (hword.trans (Option.some.inj hv).symm)))
  | policy db kb =>
    exact nets (h.unitStep_nets_core (m := .policy db kb) hmove fun _ _ hv hword =>
      inputOf_of_cfgPol (hword.trans (Option.some.inj hv).symm))
  | resetSe => exact absurd rfl hreset.1
  | resetCf => exact absurd rfl hreset.2
  | deliverErr lane => exact absurd rfl (herr lane)
  | pass | setSePorts | setCfPorts | takeSeEv | takeCfEv => cases hmove; exact unseen rfl List.prefix_rfl
  | place space =>
    obtain ⟨-, -, rfl⟩ := place_cases hmove
    cases space <;> exact unseen rfl List.prefix_rfl
  | command bits =>
    cases hmove
    rcases sendCommand_cases s bits with heq | ⟨w, -, -, heq⟩ <;> rw [heq] at unseen ⊢
    · exact unseen rfl List.prefix_rfl
    · exact unseen rfl (List.prefix_append _ _)
  | carry lane => exact done _ hmove (h.carry lane)
  | deliver lane last => exact done _ hmove (h.deliver lane last)
  | deliverEof lane => exact done _ hmove (h.deliverEof lane)
  | drop lane => exact done _ hmove (h.drop lane)
  | takeRes => exact done _ hmove h.takeRes
  | connect => exact done _ hmove (.inl h.connect)
  | benchRx w => exact done _ hmove (.inl (h.benchPut .c2s w))
  | benchNrx w => exact done _ hmove (.inl (h.benchPut .s2c w))
  | benchTx => exact done _ hmove (.inl (h.benchTake .s2c))
  | benchNtx => exact done _ hmove (.inl (h.benchTake .c2s))

end Moves

/-! ### A session at rest -/

/-- A state in which nothing is due of the host (R98) and no unit has a step to take. -/
structure State.AtRest (s : State) : Prop where
  takes : ∀ lane, ¬(s.written lane ≠ [] ∧
    (s.full lane = false ∨ s.readerClosed lane = true ∨ (s.lane lane).closed = true))
  delivers : ∀ lane, ¬((s.lane lane).buf ≠ [] ∧
    (((s.lane lane).ended = false ∧ s.readerFull lane = false) ∨ s.readerClosed lane = true))
  endsStream : ∀ lane, ¬((s.lane lane).closed = true ∧ (s.lane lane).buf = [] ∧
    (s.lane lane).ended = false ∧ s.readerStarted lane = true)
  results : ¬s.cf.res ≠ []
  se : ¬seRxReady s = true
  started : s.cf.cst ≠ .idle
  net : ¬(cfEnabled .cfNet s).isSome = true
  internal : ¬(cfEnabled .cfInternal s).isSome = true

/-! The steps that are enabled with room in the output channels. -/

section Enabled
variable {n : Nat} {s : State}

theorem seWordsWritten_le (i : Instr) (u : SE) (w : NetWord) : seWordsWritten i u w ≤ 2 := by
  cases i with
  | seKey => simp only [seWordsWritten]; cases keyPair u w <;> simp [pairWords]
  | _ => simp [seWordsWritten]

theorem cfWordsWritten_le (i : Instr) (c : CF) : (cfWordsWritten i c).1 ≤ 1 ∧ (cfWordsWritten i c).2 ≤ 1 := by
  have hfail : failNetWords c ≤ 1 := by unfold failNetWords; split <;> decide
  cases i <;> simp [cfWordsWritten, hfail]

/-- With nothing before it in its output channel SE takes any word (R89). -/
theorem seRxReady_of_tx_nil (hinv : s.Inv) (htx : s.se.tx = []) (hrx : s.se.rx ≠ []) : seRxReady s = true := by
  obtain ⟨w, rest, hw⟩ := List.exists_cons_of_ne_nil hrx
  obtain ⟨-, -, -, -, hobuf, -⟩ := hinv.legal
  refine (seRxReady_iff hw).mpr ⟨hinv.se.reachable_state, ?_⟩
  have hle := seWordsWritten_le (decodeSe (s.se.vector w)) s.se w
  rw [htx, List.length_nil]
  omega

/-- With its output channels empty CF makes any step that it has a row for (R253). -/
theorem cfEnabled_of_decode {m : Move} {v : InstrWord} {i : Instr} (hinv : s.Inv) (hntx : s.cf.ntx = [])
    (hres : s.cf.res = []) (hv : presented m s = some v) (hd : decode v = .ok i) :
    (cfEnabled m s).isSome = true := by
  obtain ⟨-, -, -, -, hobuf, -⟩ := hinv.legal
  obtain ⟨hnet, hresult⟩ := cfWordsWritten_le i s.cf
  refine Option.isSome_iff_exists.mpr ⟨i, cfEnabled_eq_some_iff.mpr ⟨v, hv, hd, (CF.hasRoom_iff ..).mpr ?_⟩⟩
  simp only [hntx, hres, List.length_nil]
  omega

theorem cfEnabled_cfInternal (hinv : s.Inv) (hntx : s.cf.ntx = []) (hres : s.cf.res = [])
    (hcst : s.cf.cst = .stream) (hph : s.cf.ph = false) : (cfEnabled .cfInternal s).isSome = true :=
  cfEnabled_of_decode hinv hntx hres rfl
    (decode_cfInternalVector hcst hph (hinv.cf.not_allSent hph) rfl)

theorem cfEnabled_cfNet (hinv : s.Inv) (hntx : s.cf.ntx = []) (hres : s.cf.res = [])
    (hcst : s.cf.cst = .hsWait ∨ (s.cf.cst = .stream ∧ s.cf.ph = true)) (hnrx : s.cf.nrx ≠ []) :
    (cfEnabled .cfNet s).isSome = true := by
  obtain ⟨w, rest, hw⟩ := List.exists_cons_of_ne_nil hnrx
  obtain ⟨i, hi⟩ : ∃ i, decode (.cfDv (s.cf.netVector w)) = .ok i := by
    rcases hcst with hcst | ⟨hcst, hph⟩
    · rw [decode_cfNetVector hcst rfl]
      cases w.kind <;> exact ⟨_, rfl⟩
    · rw [decode_cfNetVector_read hcst hph rfl]
      cases w.kind <;> exact ⟨_, rfl⟩
  exact cfEnabled_of_decode hinv hntx hres (by simp [presented, hw]) hi

theorem State.Live.cfEnabled_cfCommand (h : s.Live n) (hcst : s.cf.cst = .idle) :
    (cfEnabled .cfCommand s).isSome = true := by
  obtain ⟨m, rest, hle, hcmd⟩ := h.command hcst
  have hntx : s.cf.ntx = [] := by
    cases h.phase with
    | waits _ _ hc2s =>
      refine eq_nil_of_byteData h.ntx_bytes ?_
      simp only [State.laneBytes, List.append_eq_nil_iff] at hc2s
      exact hc2s.2
    | offers hcst' | echoes hcst' | flows hcst' | closes hcst' => cases hcst.symm.trans hcst'
  obtain ⟨-, -, -, -, hobuf, -⟩ := h.inv.legal
  have hi : decode (.cfDv (s.cf.commandVector { op := opStart, n := n, m := m })) =
      .ok (.cfStartOk s.cf.ph s.cf.allSent) :=
    decode_cfCommandVector_idle hcst rfl (decide_eq_true hle)
  refine Option.isSome_iff_exists.mpr
    ⟨_, cfEnabled_eq_some_iff.mpr ⟨_, by simp only [presented, hcmd]; rfl, hi, (CF.hasRoom_iff ..).mpr ?_⟩⟩
  rw [hntx]
  exact ⟨by simp [cfWordsWritten]; omega, h.inv.cf.res_fits⟩

end Enabled

section Rest
variable {n : Nat} {s : State}

/-- A direction that holds nothing is not full (R8, R97). -/
theorem State.Inv.full_of_buf_nil (hinv : s.Inv) {lane : Lane} (hbuf : (s.lane lane).buf = []) :
    s.full lane = false := by
  obtain ⟨-, -, -, -, -, hc2s, hs2c, -⟩ := hinv.legal
  refine Bool.eq_false_iff.mpr fun hfull => ?_
  obtain ⟨k, hk, hle⟩ := (s.full_eq_true_iff lane).mp hfull
  rw [hbuf] at hle
  cases lane with
  | c2s => rw [show s.params.netBufC2s = some k from hk] at hc2s; simp at hc2s hle; omega
  | s2c => rw [show s.params.netBufS2c = some k from hk] at hs2c; simp at hs2c hle; omega

/-- An empty channel has room for a byte (R88). -/
theorem State.Inv.readerFull_of_nil (hinv : s.Inv) {lane : Lane} (hnil : s.readerChannel lane = []) :
    s.readerFull lane = false := by
  obtain ⟨-, -, -, -, -, -, -, hc2s, hs2c⟩ := hinv.legal
  refine (s.readerFull_eq_false_iff lane).mpr fun k hk => ?_
  rw [hnil]
  cases lane with
  | c2s => rw [show s.params.rxRoomC2s = some k from hk] at hc2s; simp at hc2s ⊢; omega
  | s2c => rw [show s.params.rxRoomS2c = some k from hk] at hs2c; simp at hs2c ⊢; omega

/-- Before SE's close there are never more replies than SE has room for with `NET_BUF` of `n + 1` (R320). -/
theorem State.Live.replies_le (h : s.Live n) (hopen : s.se.st ≠ .closed) :
    (s.laneBytes .s2c).length ≤ n + 1 := by
  cases h.phase with
  | waits _ _ _ hs2c | offers _ _ _ hs2c | echoes _ _ _ _ hs2c => simp [hs2c]
  | flows hcst _ body hflow =>
    have hbound := hflow.bounded
    have htxp := h.inv.cf.txp_le
    rw [h.length (by simp [hcst])] at htxp
    rw [State.unread] at hbound
    omega
  | closes _ hst => exact absurd hst hopen

/-- So an SE that has not closed is never without room for long (R97). -/
theorem State.AtRest.tx_nil (hr : s.AtRest) (h : s.Live n) (hopen : s.se.st ≠ .closed) : s.se.tx = [] := by
  by_contra htx
  have hfull : s.full .s2c = true :=
    Bool.not_eq_false _ ▸ fun hfull => hr.takes .s2c ⟨htx, .inl hfull⟩
  obtain ⟨k, hk, hle⟩ := (s.full_eq_true_iff .s2c).mp hfull
  have hroom := h.terms.room k hk
  have hreplies := h.replies_le hopen
  have hlen := length_byteData_of_bytes (h.tx_bytes hopen)
  have hpos := List.length_pos_iff.mpr htx
  replace hle : k ≤ s.link.s2c.buf.length := hle
  simp only [State.laneBytes, List.length_append] at hreplies
  omega

/-- At rest there is nothing on its way to an SE that has not closed. -/
theorem State.AtRest.c2s_nil (hr : s.AtRest) (h : s.Live n) (hopen : s.se.st ≠ .closed) :
    s.cf.ntx = [] ∧ s.laneBytes .c2s = [] := by
  have hrx : s.se.rx = [] := not_not.mp fun hrx =>
    hr.se (seRxReady_of_tx_nil h.inv (hr.tx_nil h hopen) hrx)
  have hbuf : s.link.c2s.buf = [] := not_not.mp fun hbuf =>
    hr.delivers .c2s ⟨hbuf, .inl ⟨h.wires.c2s_runs, h.inv.readerFull_of_nil (lane := .c2s) hrx⟩⟩
  have hntx : s.cf.ntx = [] := not_not.mp fun hntx =>
    hr.takes .c2s ⟨hntx, .inl (h.inv.full_of_buf_nil (lane := .c2s) hbuf)⟩
  exact ⟨hntx, by simp [State.laneBytes, hrx, hbuf, hntx]⟩

/-- Nor has CF, with its output channels empty, a word to read or one to send. -/
theorem State.AtRest.client (hr : s.AtRest) (h : s.Live n) (hntx : s.cf.ntx = []) :
    s.cf.nrx = [] ∧ (s.cf.cst = .stream → s.cf.ph = true) := by
  have hres : s.cf.res = [] := not_not.mp hr.results
  have hread : s.cf.cst = .stream → s.cf.ph = true := fun hcst => Bool.not_eq_false _ ▸ fun hph =>
    hr.internal (cfEnabled_cfInternal h.inv hntx hres hcst hph)
  refine ⟨not_not.mp fun hnrx => hr.net (cfEnabled_cfNet h.inv hntx hres ?_ hnrx), hread⟩
  cases h.phase with
  | waits hcst => exact absurd hcst hr.started
  | offers hcst | echoes hcst => exact .inl hcst
  | flows hcst | closes hcst => exact .inr ⟨hcst, hread hcst⟩

/-- And nothing is on its way to CF from an SE that has not closed. -/
theorem State.AtRest.s2c_nil (hr : s.AtRest) (h : s.Live n) (hopen : s.se.st ≠ .closed) :
    s.laneBytes .s2c = [] := by
  obtain ⟨hnrx, -⟩ := hr.client h (hr.c2s_nil h hopen).1
  obtain ⟨-, hended⟩ := h.wires.s2c_open hopen
  have hbuf : s.link.s2c.buf = [] := not_not.mp fun hbuf =>
    hr.delivers .s2c ⟨hbuf, .inl ⟨hended, h.inv.readerFull_of_nil (lane := .s2c) hnrx⟩⟩
  simp [State.laneBytes, hnrx, hbuf, hr.tx_nil h hopen]

/-- The end of a CLOSED SE's direction is due, or has reached CF. -/
theorem State.AtRest.not_closed (hr : s.AtRest) (h : s.Live n) : s.se.st ≠ .closed := by
  intro hst
  have hreader : s.readerClosed .c2s = true := by simp [State.readerClosed, hst]
  have hntx : s.cf.ntx = [] := not_not.mp fun hntx => hr.takes .c2s ⟨hntx, .inr (.inl hreader)⟩
  obtain ⟨hnrx, -⟩ := hr.client h hntx
  have hended : s.link.s2c.ended = false := by
    obtain ⟨ws, hreads⟩ := h.wires.reads
    cases he : s.link.s2c.ended with
    | false => rfl
    | true =>
      have hwords := hreads.nrx
      rw [hnrx, he] at hwords
      simp at hwords
  have hbuf : s.link.s2c.buf = [] := not_not.mp fun hbuf =>
    hr.delivers .s2c ⟨hbuf, .inl ⟨hended, h.inv.readerFull_of_nil (lane := .s2c) hnrx⟩⟩
  have htx : s.se.tx = [] := not_not.mp fun htx =>
    hr.takes .s2c ⟨htx, .inl (h.inv.full_of_buf_nil (lane := .s2c) hbuf)⟩
  have hclosed : s.link.s2c.closed = true :=
    (h.wires.closing_written hst).resolve_right (by simp [htx])
  exact hr.endsStream .s2c ⟨hclosed, hbuf, hended, readerStarted_of_imp fun _ => hr.started⟩

/-- A live session comes to rest only where CF waits in a read whose end the transport owes it (R320, R93). -/
theorem State.AtRest.inOpenRead (hr : s.AtRest) (h : s.Live n) : s.inOpenRead := by
  have hopen := hr.not_closed h
  obtain ⟨hntx, hc2s⟩ := hr.c2s_nil h hopen
  have hs2c := hr.s2c_nil h hopen
  obtain ⟨-, hread⟩ := hr.client h hntx
  cases h.phase with
  | waits hcst => exact absurd hcst hr.started
  | offers _ _ hone => cases hc2s.symm.trans hone
  | echoes _ _ _ _ hone => cases hs2c.symm.trans hone
  | closes _ hst => exact absurd hst hopen
  | flows hcst hst body hflow =>
    have hsending := hc2s.symm.trans hflow.sending
    obtain ⟨hbody, hsentinel⟩ := List.append_eq_nil_iff.mp hsending.symm
    have ha : s.cf.allSent = false := by
      cases ha : s.cf.allSent with
      | false => rfl
      | true => rw [ha] at hsentinel; cases hsentinel
    have hcarry : s.se.cv.toNat ≤ 1 := Bool.toNat_le _
    rcases hflow.reads (hread hcst) ha with hreply | ⟨hnrx, hread'⟩
    · rw [State.unread, hs2c, hbody, List.length_nil] at hreply
      omega
    · exact ⟨hcst, hread hcst, hnrx, hread', (h.wires.s2c_open hopen).2⟩

end Rest

/-! ### Endless runs -/

/-- An endless run of R320's session that has not ended at any point, with the assumptions of R320 but the one that
reads end. There is such a run (`liveRun_of_open_read`), and it stands in an open read
(`LiveRun.stands_in_open_read`). -/
structure LiveRun (σ : Nat → State) (μ : Nat → Move) (n : Nat) : Prop where
  duties : HostDuties σ μ
  units : UnitsMove σ μ
  live : ∀ j, (σ j).Live n
  noReset : ∀ j, μ j ≠ .resetSe ∧ μ j ≠ .resetCf
  noError : ∀ j lane, μ j ≠ .deliverErr lane
  symbols : ∀ j, (σ j).se.pol = .skip → (σ j).cf.cst = .stream →
    ∀ i, i < n → IsSymbol ((σ j).data.read i) ∧ IsSymbol ((σ j).key.read i)
  unended : ∀ j, ¬(σ j).Ended

/-- From `k` on the argument sees no move any more. -/
def Stands (σ : Nat → State) (k : Nat) : Prop := ∀ j, k ≤ j → (σ j).core = (σ k).core

namespace LiveRun
variable {σ : Nat → State} {μ : Nat → Move} {n k j : Nat}

theorem goes (h : LiveRun σ μ n) (j : Nat) : Goes n (σ j) (σ (j + 1)) :=
  (h.live j).goes (h.symbols j) (h.duties.run j) (h.noReset j) (h.noError j)

/-- The work left cannot become less for ever. -/
theorem exists_stands (h : LiveRun σ μ n) : ∃ k, Stands σ k := by
  obtain ⟨k, hmin⟩ : ∃ k, ∀ j, (σ k).work n ≤ (σ j).work n :=
    ⟨_, fun j => Function.argmin_le (fun j => (σ j).work n) j⟩
  refine ⟨k, fun j hj => ?_⟩
  induction j, hj using Nat.le_induction with
  | base => rfl
  | succ j _ ih =>
    rcases h.goes j with ⟨hcore, -⟩ | hend | ⟨-, hless⟩
    · exact hcore.trans ih
    · exact absurd hend (h.unended (j + 1))
    · have hwork : (σ j).work n = (σ k).work n := show (σ j).core.work n = (σ k).core.work n by rw [ih]
      exact absurd hless (Nat.not_lt.mpr (hwork ▸ hmin (j + 1)))

/-- A move that advances a session, where it has an effect, holds from there on. -/
theorem holds (h : LiveRun σ μ n) (hk : Stands σ k) (hj : k ≤ j) {m : Move} {t : State} (hm : μ j = m)
    (hmove : doMove m (σ j) = .next t) (hadvances : t = σ j ∨ Advances n (σ j) t) : σ (j + 1) = σ j := by
  obtain rfl : σ (j + 1) = t := Host.Outcome.next.inj ((h.duties.run j).symm.trans (hm ▸ hmove))
  refine hadvances.resolve_right fun hadvances => ?_
  rcases hadvances with hend | ⟨-, hless⟩
  · exact h.unended (j + 1) hend
  · have hwork : (σ (j + 1)).work n = (σ j).work n :=
      show (σ (j + 1)).core.work n = (σ j).core.work n by rw [hk (j + 1) (by omega), hk j hj]
    exact absurd hless (hwork ▸ lt_irrefl _)

/-- A unit's move, as any move of the run. -/
theorem holds_of_run (h : LiveRun σ μ n) (hk : Stands σ k) (hj : k ≤ j) {m : Move} (hm : μ j = m)
    (hadvances : doMove m (σ j) = .next (σ (j + 1)) →
      σ (j + 1) = σ j ∨ Advances n (σ j) (σ (j + 1))) : σ (j + 1) = σ j := by
  have hmove : doMove m (σ j) = .next (σ (j + 1)) := hm ▸ h.duties.run j
  exact h.holds hk hj hm hmove (hadvances hmove)

end LiveRun

/-- What is due, of the core of a state alone, is not due where a run stands and no move serves it any more. -/
theorem Served.not_due {σ : Nat → State} {μ : Nat → Move} {due : State → Prop} {serves : Move → Prop}
    (h : Served σ μ due serves) (hdue : ∀ s : State, due s.core ↔ due s) {k : Nat} (hk : Stands σ k)
    (hholds : ∀ j, k ≤ j → serves (μ j) → σ (j + 1) = σ j) : ¬due (σ k) := by
  intro hnow
  obtain ⟨j, hj, hnot | ⟨hserves, hchange⟩⟩ := h k
  · exact hnot ((hdue _).mp (hk j hj ▸ (hdue _).mpr hnow))
  · exact hchange (hholds j hj hserves)

namespace LiveRun
variable {σ : Nat → State} {μ : Nat → Move} {n k : Nat} (h : LiveRun σ μ n) (hk : Stands σ k)
include h hk

theorem not_takes (lane : Lane) : ¬((σ k).written lane ≠ [] ∧ ((σ k).full lane = false ∨
    (σ k).readerClosed lane = true ∨ ((σ k).lane lane).closed = true)) := by
  refine (h.duties.takes lane).not_due (fun s => by cases lane <;> exact Iff.rfl) hk fun j hj hm => ?_
  rcases hm with hm | hm | hm | hm
  · exact h.holds hk hj hm rfl ((h.live j).carry lane)
  · exact h.holds hk hj hm rfl ((h.live j).drop lane)
  · exact h.holds hk hj hm rfl (.inl (h.live j).connect)
  · obtain ⟨hse, hcf⟩ := h.noReset j
    cases lane
    exacts [absurd hm hcf, absurd hm hse]

theorem not_delivers (lane : Lane) : ¬(((σ k).lane lane).buf ≠ [] ∧
    ((((σ k).lane lane).ended = false ∧ (σ k).readerFull lane = false) ∨
      (σ k).readerClosed lane = true)) := by
  refine (h.duties.delivers lane).not_due (fun s => by cases lane <;> exact Iff.rfl) hk fun j hj hm => ?_
  rcases hm with hm | hm | hm
  · exact h.holds hk hj hm rfl ((h.live j).deliver lane true)
  · exact h.holds hk hj hm rfl ((h.live j).deliver lane false)
  · exact h.holds hk hj hm rfl ((h.live j).drop lane)

/-- The START is always ready to be taken. -/
theorem started : (σ k).cf.cst ≠ .idle := by
  intro hidle
  obtain ⟨j, hj, hnot | ⟨hm, hchange⟩⟩ := h.units.command k
  · have hcst : (σ j).cf.cst = (σ k).cf.cst := show (σ j).core.cf.cst = (σ k).core.cf.cst by rw [hk j hj]
    exact hnot ((h.live j).cfEnabled_cfCommand (hcst.trans hidle))
  · exact hchange (h.holds_of_run hk hj hm (h.live j).cfCommand)

/-- Where a live run stands its session is at rest: what was due would be served. -/
theorem atRest : (σ k).AtRest where
  takes := h.not_takes hk
  delivers := h.not_delivers hk
  endsStream lane := (h.duties.endsStream lane).not_due (fun s => by cases lane <;> exact Iff.rfl) hk
    fun j hj hm => h.holds hk hj hm rfl ((h.live j).deliverEof lane)
  results := h.duties.takesResults.not_due (fun _ => Iff.rfl) hk
    fun j hj hm => h.holds hk hj hm rfl (h.live j).takeRes
  se := h.units.se.not_due (fun _ => Iff.rfl) hk fun j hj hm => h.holds_of_run hk hj hm (h.live j).se
  started := h.started hk
  net := h.units.net.not_due (fun _ => Iff.rfl) hk
    fun j hj hm => h.holds_of_run hk hj hm (h.live j).cfNet
  internal := h.units.internal.not_due (fun _ => Iff.rfl) hk
    fun j hj hm => h.holds_of_run hk hj hm ((h.live j).cfInternal (h.symbols j))

omit hk in
/-- A session that never ends waits in the end for ever in a read without an end (R320; assumption 9). -/
theorem stands_in_open_read : ∃ k, ∀ j, k ≤ j → (σ j).inOpenRead := by
  obtain ⟨k, hk⟩ := h.exists_stands
  refine ⟨k, fun j hj => (h.atRest fun i hi => ?_).inOpenRead (h.live j)⟩
  rw [hk i (hj.trans hi), hk j hj]

end LiveRun

/-- CF has read the one reply of its one chunk, delivered without LAST, and the transport ends the read no more. -/
def openRead : State :=
  { State.reset with
    se := { SE.afterReset with st := .active }
    cf := { CF.afterReset with cst := .stream, ph := true, n := 1, m := 1, txp := 2 }
    link := { c2s := LaneState.empty, s2c := { LaneState.empty with chunkLen := 1 } }
    data := [(0, 0x48)], key := [(0, 0x58)] }

theorem openRead_inv : openRead.Inv where
  legal := by decide
  se := by constructor <;> decide
  cf := by
    constructor <;>
      simp [openRead, CF.afterReset, CF.terminal, State.reset, Params.reference, cfCfgLegal, sym2val]
  lanes lane := by cases lane <;> exact ⟨nofun, fun _ => nofun, by decide⟩
  data := by decide
  key := by decide

theorem openRead_live : openRead.Live 1 where
  inv := openRead_inv
  command := nofun
  length _ := rfl
  terms := ⟨rfl, rfl, by decide, nofun, rfl⟩
  wires := ⟨rfl, rfl, rfl, nofun, ⟨[], rfl, nofun, nofun⟩, nofun, nofun, nofun⟩
  phase := .flows rfl rfl [] ⟨rfl, rfl, by decide, nofun, fun _ _ => .inr ⟨rfl, by decide⟩, fun _ => rfl,
    fun _ => ⟨nofun, nofun⟩⟩

/-- Without the assumption that reads end, a session need not end. -/
theorem liveRun_of_open_read : LiveRun (fun _ => openRead) (fun _ => .pass) 1 where
  duties := {
    run := fun _ => rfl
    conforming := rfl
    takes := fun lane => served_at_rest (by cases lane <;> decide)
    delivers := fun lane => served_at_rest (by cases lane <;> decide)
    endsStream := fun lane => served_at_rest (by cases lane <;> decide)
    takesResults := served_at_rest (by decide) }
  units := ⟨served_at_rest (by decide), served_at_rest (by decide), served_at_rest (by decide),
    served_at_rest (by decide)⟩
  live := fun _ => openRead_live
  noReset := fun _ => ⟨nofun, nofun⟩
  noError := fun _ _ => nofun
  symbols := fun _ _ _ i hi => by
    obtain rfl : i = 0 := by omega
    decide
  unended := fun _ => by rintro (h | ⟨h, -⟩) <;> cases h

/-! ### R320's sessions -/

section Session
variable {σ : Nat → State} {μ : Nat → Move} {n m : Nat} (h : LiveSession σ μ n m)
include h

/-- R320's session begins with the START before a CF and an SE as their resets left them. -/
theorem LiveSession.live_start : (σ 0).Live n := by
  obtain ⟨hst, hrx, htx, hcst, hnrx, hntx, -, hcmd, hle, hlink⟩ := h.start
  obtain ⟨hsent, hlegal, -⟩ := h.sentinel
  refine ⟨h.inv, fun _ => ⟨m, [], hle, hcmd⟩, fun hne => absurd hcst hne,
    ⟨hsent, hlegal, h.chunk, h.room, h.duties.conforming⟩,
    ⟨by rw [hlink]; rfl, by rw [hlink]; rfl, by rw [hlink]; rfl, by simp [hrx],
      ⟨[], by rw [hnrx, hlink]; rfl, by simp, by simp⟩, fun hended => ?_, fun hclosed => ?_, fun hclosed => ?_⟩,
    .waits hcst hst (by simp [State.laneBytes, hrx, hlink, hntx, LaneState.empty])
      (by simp [State.laneBytes, hnrx, hlink, htx, LaneState.empty])⟩
  · rw [hlink] at hended; cases hended
  · rw [hlink] at hclosed; cases hclosed
  · cases hst.symm.trans hclosed

/-- The invariant and the policy latched stay, as no unit is reset (R45). -/
theorem LiveSession.inv_and_pol (j : Nat) : (σ j).Inv ∧ (σ j).se.pol = (σ 0).se.pol := by
  induction j with
  | zero => exact ⟨h.inv, rfl⟩
  | succ j ih =>
    obtain ⟨hinv, hpol⟩ := ih
    have hmove := h.duties.run j
    obtain ⟨-, -, hkeeps, -⟩ :=
      (SE.configRegs_eq_iff _ _).mp (doMove_se_configRegs hmove hinv.se (h.noReset j).1)
    exact ⟨doMove_inv hinv hmove, hkeeps.trans hpol⟩

theorem LiveSession.stream_symbols (j : Nat) (hskip : (σ j).se.pol = .skip)
    (hcst : (σ j).cf.cst = .stream) (i : Nat) (hi : i < n) :
    IsSymbol ((σ j).data.read i) ∧ IsSymbol ((σ j).key.read i) := by
  obtain ⟨-, hpol⟩ := h.inv_and_pol j
  exact h.symbols.resolve_left (not_not.mpr (hpol ▸ hskip)) j i
    ((σ j).inSession_iff.mpr (.inr (.inl hcst))) hi

/-- A session is live until it ends. -/
theorem LiveSession.live {j : Nat} (hunended : ∀ i, i ≤ j → ¬(σ i).Ended) : (σ j).Live n := by
  induction j with
  | zero => exact h.live_start
  | succ j ih =>
    have hlive := ih fun i hi => hunended i (by omega)
    rcases hlive.goes (h.stream_symbols j) (h.duties.run j) (h.noReset j) (h.noError j) with
      ⟨-, hlive⟩ | hend | ⟨hlive, -⟩
    · exact hlive
    · exact absurd hend (hunended (j + 1) le_rfl)
    · exact hlive

end Session

/-- Settles O53: a session that never ends is live at every point, and so waits for ever in a read without an end. -/
theorem sessionEnds : Obligations.SessionEnds := by
  intro σ μ n m h
  by_contra hnever
  have hunended : ∀ j, ¬(σ j).Ended := fun j hend => hnever ⟨j, hend⟩
  have hrun : LiveRun σ μ n := ⟨h.duties, h.units, fun j => h.live fun i _ => hunended i, h.noReset, h.noError,
    h.stream_symbols, hunended⟩
  obtain ⟨k, hopen⟩ := hrun.stands_in_open_read
  obtain ⟨j, hj, hends⟩ := h.readsEnd k
  exact hends (hopen j hj)

end Sys2Proof.Machine
end
